-- ==== Sys2Proof/Word.lean ====
section
/-! DEFINITION. The word types of the AruXI core (R7, R9): 32-bit words, 16-bit status words, bytes and
5-bit register indices. Arithmetic on them is modulo a power of two, as R9 asks. -/

namespace Sys2Proof

/-- A register value, an address, an ALU operand or an instruction word: XLEN is 32 (R7, R9). -/
abbrev Word := BitVec 32

/-- A 16-bit status word: CSTR, ESR and the CSTR latch (R25, R31, R33). -/
abbrev Half := BitVec 16

/-- The addressable unit of memory (R50). -/
abbrev Byte := BitVec 8

/-- A 5-bit register index (R20): 0..30 name general registers, 31 names SP. -/
abbrev RegIdx := BitVec 5

end Sys2Proof
end

