-- ==== Sys2Proof/Config.lean ====
section
/-! DEFINITION. The parameters of R8 at the defaults of the spec's decision table (92_eei_decisions.md), and the values that
the spec leaves open: SAFETY_LIMIT (D33) and the staging draw (D55), which are opaque constants. -/

namespace Sys2Proof

/-- The twelve regions of the partition table (R55). -/
inductive Region where
  | evt | ktext | kdata | kheap | kstack | syslib
  | ubss | uconst | udata | utext | uheap | ustack
deriving DecidableEq, Repr

/-- The named bits of CSTR (R25). -/
inductive CstrBit where
  | c | o | n | z | ie | priv | ve | ioh
deriving DecidableEq, Repr

/-- The inclusive address range of one region (R55). -/
structure Bounds where
  lo : Nat
  hi : Nat
deriving DecidableEq, Repr

/-- One field of the process-state record (R37). -/
structure PsField where
  name : String
  offset : Nat
  size : Nat
deriving DecidableEq, Repr

namespace Config

/-- The default partition table of R55 (D18): the spec's own bounds, since the source's table is lost (C6).
DESIGN CHOICE of the spec, unsafe: log entry 3. -/
def bounds : Region → Bounds
  | .evt    => ⟨0x000FF000, 0x000FFFFF⟩
  | .ktext  => ⟨0x00100000, 0x001FFFFF⟩
  | .kdata  => ⟨0x00200000, 0x002FFFFF⟩
  | .kheap  => ⟨0x00300000, 0x003DFFFF⟩
  | .kstack => ⟨0x003E0000, 0x003FFFFF⟩
  | .syslib => ⟨0x00400000, 0x004FFFFF⟩
  | .ubss   => ⟨0x00500000, 0x0057FFFF⟩
  | .uconst => ⟨0x00580000, 0x005FFFFF⟩
  | .udata  => ⟨0x00600000, 0x006FFFFF⟩
  | .utext  => ⟨0x00700000, 0x007FFFFF⟩
  | .uheap  => ⟨0x00800000, 0x00CFFFFF⟩
  | .ustack => ⟨0x00F00000, 0x00FFFFFF⟩

/-- `X_LO` of region X (R55). -/
def lo (r : Region) : Nat := (bounds r).lo

/-- `X_HI` of region X (R55). -/
def hi (r : Region) : Nat := (bounds r).hi

/-- Every region, in the order of R55's table. -/
def regions : List Region :=
  [.evt, .ktext, .kdata, .kheap, .kstack, .syslib, .ubss, .uconst, .udata, .utext, .uheap, .ustack]

/-- `MEM_SIZE`: the buffer holds bytes 0 .. MEM_SIZE-1 (R50, D18). DESIGN CHOICE of the spec, unsafe: log entry 3. -/
def memSize : Nat := 0x01000000

/-- `EXC_VECTOR = EVT_LO`: the one exception-vector address (R280, R285, D24). Log entry 4. -/
def excVector : Word := 0x000FF000#32

/-- `ACTIVE_PS_PTR`: the address of the cell that holds the active process-state pointer (R38, D26). Log entry 5. -/
def activePsPtr : Word := 0x00200000#32

/-- `LINK_REG`: the register CALL writes (R223, D9). Log entry 6. -/
def linkReg : RegIdx := 29#5

/-- The bit positions of CSTR (R25, D12). Log entry 7. -/
def cstrPos : CstrBit → Nat
  | .c => 0 | .o => 1 | .n => 2 | .z => 3 | .ie => 4 | .priv => 5 | .ve => 6 | .ioh => 7

/-- The pending marker's position in the CSTR latch, always 0 in the live CSTR (R30, R33). -/
def pendingPos : Nat := 15

/-- The offset of the saved instruction pointer in the process-state record (R37). -/
def psSavedIp : Word := 10#32

/-- The offset of the exception-type tag in the process-state record (R37). -/
def psTag : Word := 566#32

/-- The whole layout of the process-state record (R37, S3). The core uses the saved IP and the tag only. -/
def psLayout : List PsField :=
  [⟨"process id", 0, 1⟩, ⟨"thread count", 1, 1⟩, ⟨"thread-state pointer", 2, 4⟩, ⟨"saved stack pointer", 6, 4⟩,
   ⟨"saved instruction pointer", 10, 4⟩, ⟨"saved CSTR", 14, 2⟩, ⟨"saved ESR", 16, 2⟩,
   ⟨"saved general registers", 18, 100⟩, ⟨"saved float registers", 118, 64⟩,
   ⟨"not described by the source", 182, 384⟩, ⟨"exception-type tag", 566, 1⟩]

/-- What a byte of memory that nothing has written reads as. The spec leaves it open (I11: any value).
DESIGN CHOICE, unsafe: log entry 1. -/
def unwrittenByte : Byte := 0#8

/-- One less than `SAFETY_LIMIT`: a free value, since the spec gives the threshold no value (D33, OPEN).
Opaque, so that no proof can see it. Log entry 2. -/
opaque safetyLimitPred : Nat

/-- `SAFETY_LIMIT`, a positive integer (R139, I9): the cycle at whose end the core halts. Log entry 2. -/
def safetyLimit : Nat := safetyLimitPred + 1

/-- The draw of R291 (D55, I15): whether staging the n-th IO request succeeds. A free value of every request,
opaque, so that no proof can see it. Log entry 8. -/
opaque stagingSucceeds : Nat → Bool

end Config

end Sys2Proof
end

