-- ==== Sys2Proof/Machine/State.lean ====
section
/-! DEFINITION. The state of the core (10_state.md) as plain data, the reasons a step can stop, and the state after reset (R41). -/

namespace Sys2Proof.Machine

/-- The status tag (R32). FATAL is not one of its values (R15): it is `fatalFlag`. -/
inductive Status where
  | running | exception | halted | ioWait
deriving DecidableEq, Repr

/-- The privilege levels (R298). -/
inductive Priv where
  | user | kernel
deriving DecidableEq, Repr

/-- The access widths (R53). -/
inductive Width where
  | byte | half | word
deriving DecidableEq, Repr

/-- The access kinds whose start the engine validates by different rules (R60, R66). -/
inductive ReadKind where
  | fetch | data
deriving DecidableEq, Repr

/-- MemoryError, a closed taxonomy (R68). A value returned by the access engine, never a stop by itself. -/
inductive MemoryError where
  | internal
  | kOverflow | kOverread | kStackOverflow | kHeapOverflow | kTextWrite | kSectionWrite | kSectionRead
  | kFetchSectionRead
  | uOverflow | uOverread | uStackOverflow | uHeapOverflow | uTextWrite | uSectionWrite | uSectionRead
  | uFetchSectionRead | uConstWrite
deriving DecidableEq, Repr

/-- The five guest exceptions (R271), each with what its ESR value is made of. -/
inductive GuestException where
  | syscall (number : Half)
  | instrAbort (e : MemoryError)
  | invalidInstr
  | privViolation
  | dataAbort (e : MemoryError)
deriving DecidableEq, Repr

/-- The reasons of a fatal fault (R290). -/
inductive FatalReason where
  | kernelFetch (e : MemoryError)
  | kernelInvalidOpcode
  | kernelData (e : MemoryError)
  | divZero
  | eretNoProcess
  | psAccess
  | internal
deriving DecidableEq, Repr

/-- The IO request descriptor: operation kind, buffer address, length (R244). -/
structure IoRequest where
  operation : Word
  bufferAddress : Word
  length : Word
deriving DecidableEq, Repr

/-- The calls the core makes to its host (R296). -/
inductive CoreCall where
  /-- `deliver_fault(FATAL, reason)` (R290). -/
  | deliverFatal (reason : FatalReason)
  /-- `deliver_fault(COREDUMP)` (R294). -/
  | deliverCoredump
  /-- `halted(CLEAN)` (R294). -/
  | haltedClean
  /-- `request_io(operation, buffer_address, length)` (R244). -/
  | requestIo (request : IoRequest)
deriving DecidableEq, Repr

/-- What the host does at one cycle boundary (R141, R296, R297). -/
inductive HostInput where
  /-- The host does nothing at this boundary: the core takes one cycle. -/
  | run
  /-- `resume(entry)` (R296). -/
  | resume (entry : Word)
  /-- `acknowledge(kind)`; the core does not interpret `kind` (R296, I14). -/
  | acknowledge (kind : Nat)
  /-- Set the pause request (R141). -/
  | pause
  /-- Clear the pause request (R141). -/
  | unpause
  /-- The host (loader or IO collaborator) writes one byte (R297). -/
  | write (addr : Word) (value : Byte)
deriving DecidableEq, Repr

/-- Memory: (address, byte) pairs in one canonical form (`Memory.wf`). -/
abbrev Memory := List Host.Cell

/-- The state of the core. The last three fields are the model's own (INVENTORY.md, State). -/
structure State where
  /-- r0..r30 (R20). -/
  gpr : Vector Word 31
  /-- SP, register index 31 (R20). -/
  sp : Word
  /-- IP: the address of the next instruction to fetch (R24). -/
  pc : Word
  /-- CSTR (R25). -/
  cstr : Half
  /-- ESR (R31). -/
  esr : Half
  /-- The deferred CSTR value and its pending marker (R33). -/
  cstrLatch : Half
  /-- The status tag (R32). -/
  status : Status
  /-- The cycles since the last resume or acknowledge (R34). -/
  cyc : Nat
  /-- A fatal fault has happened (R35). -/
  fatalFlag : Bool
  /-- The address space (R50). -/
  mem : Memory
  /-- The host's pause request (R141). -/
  paused : Bool
  /-- The IO request staged last (R244, R297). -/
  ioRequest : Option IoRequest
  /-- The model's own: the calls made to the host, newest first (R296; log entry 22). -/
  outbox : List CoreCall
  /-- The model's own: what the host does at the coming cycle boundaries (R143; log entry 15). -/
  hostInputs : List HostInput
  /-- The model's own: how many IO requests have been drawn (R291; log entry 8). -/
  ioDraws : Nat
deriving DecidableEq, Repr

/-- Why the machine has no next step. Raised by `step` alone, never by an instruction: a fatal fault is a next
state with `fatalFlag` set (log entry 13). All of them are safe: the spec gives the core no step there. -/
inductive Fault where
  /-- A fatal fault has ended the core's execution for good (R35, R290, I18). Raised by `step`; safe. -/
  | fatalStopped
  /-- The core is HALTED and the host has not resumed it (R295). Raised by `step`; safe. -/
  | halted
  /-- The core is in IO_WAIT and the host has not ended the wait (R295). Raised by `step`; safe. -/
  | ioWaiting
  /-- The host has paused the core at the top of the cycle loop (R141). Raised by `step`; safe. -/
  | paused
deriving DecidableEq, Repr

/-- Why the model gives an input no meaning. -/
inductive Refusal where
  /-- An instruction without a meaning: raised by `exec`'s refused arms; safe. No arm answers it in this model. -/
  | notModelled (mnemonic : String)
  /-- A host write at a time or an address the spec does not allow (R297, I16). Raised by `step`; safe. -/
  | hostWriteNotAllowed
deriving DecidableEq, Repr

/-- The state after reset (R41, R310): every value is R41's; the host's and the model's own fields are those of
log entry 11, and memory lists nothing (log entry 1). -/
def State.reset : State where
  gpr := Vector.replicate 31 0#32
  sp := 0#32
  pc := 0#32
  cstr := 0x0020#16
  esr := 0#16
  cstrLatch := 0#16
  status := .halted
  cyc := 0
  fatalFlag := false
  mem := []
  paused := false
  ioRequest := none
  outbox := []
  hostInputs := []
  ioDraws := 0

end Sys2Proof.Machine
end

