-- ==== Sys2Proof/Machine/Memory.lean ====
section
/-! DEFINITION. Memory (R50, R51): bytes in a canonical list, and little-endian multi-byte access in one place. -/

namespace Sys2Proof.Machine

/-- The byte at an address; an address the list does not name reads as `Config.unwrittenByte`. -/
def Memory.get : Memory → Nat → Byte
  | [], _ => Config.unwrittenByte
  | (b, v) :: m, a => if a = b then v else Memory.get m a

/-- Put one byte at an address, keeping the canonical form: writing what an unlisted address reads as removes the entry. -/
def Memory.set : Memory → Nat → Byte → Memory
  | [], a, v => if v = Config.unwrittenByte then [] else [(a, v)]
  | (b, w) :: m, a, v =>
    if a < b then
      if v = Config.unwrittenByte then (b, w) :: m else (a, v) :: (b, w) :: m
    else if a = b then
      if v = Config.unwrittenByte then m else (a, v) :: m
    else (b, w) :: Memory.set m a v

/-- `MemRead(a, n)` (R51): the `n` bytes at `a`, little-endian, as a number. -/
def Memory.readLE (m : Memory) (a : Nat) : Nat → Nat
  | 0 => 0
  | n + 1 => (Memory.get m a).toNat + 256 * Memory.readLE m (a + 1) n

/-- `MemWrite(a, n, v)` (R51): the low `n` bytes of `v`, little-endian. -/
def Memory.writeLE (m : Memory) (a : Nat) : Nat → Nat → Memory
  | 0, _ => m
  | n + 1, v => Memory.writeLE (Memory.set m a (BitVec.ofNat 8 v)) (a + 1) n (v / 256)

/-- Every address of the list is at least `lo`, addresses rise strictly, and no entry holds what an unlisted
address reads as. -/
def Memory.wfFrom : Nat → Memory → Bool
  | _, [] => true
  | lo, (b, v) :: m => decide (lo ≤ b) && v != Config.unwrittenByte && Memory.wfFrom (b + 1) m

/-- The canonical form: equal memories are equal lists. -/
def Memory.wf (m : Memory) : Bool := Memory.wfFrom 0 m

/-- Every listed address lies in the buffer (R50). -/
def Memory.inBuffer (m : Memory) : Bool := m.all (fun c => decide (c.1 < Config.memSize))

end Sys2Proof.Machine
end

