-- ==== Sys2Proof/Machine/Access.lean ====
section
/-! DEFINITION. The memory protection and access engine (R55 to R68): start validators, the crossing check and the
checked read and write that every fetch, load, store and process-state access goes through. -/

namespace Sys2Proof.Machine

/-- How many bytes an access of a width moves (R53). -/
def Width.bytes : Width → Nat
  | .byte => 1
  | .half => 2
  | .word => 4

/-- `a ∈ X` (R55): the inclusive range of a region. -/
abbrev InRegion (r : Region) (a : Nat) : Prop := Config.lo r ≤ a ∧ a ≤ Config.hi r

/-- `region(a)` (R58), or none. -/
def regionOf (a : Nat) : Option Region := Config.regions.find? (fun r => decide (InRegion r a))

/-- `FetchStart(a, priv)` (R60); none is ok. -/
def fetchStart (a : Nat) (p : Priv) : Option MemoryError :=
  match p with
  | .kernel =>
    if InRegion .syslib a ∨ (Config.lo .ktext ≤ a ∧ a ≤ Config.hi .kdata) ∨ InRegion .evt a then none
    else some .kFetchSectionRead
  | .user =>
    if InRegion .utext a ∨ InRegion .syslib a then none else some .uFetchSectionRead

/-- `ReadStart(a, priv)` (R61, R62); none is ok. -/
def readStart (a : Nat) (p : Priv) : Option MemoryError :=
  match p with
  | .kernel =>
    if InRegion .syslib a ∨ (Config.lo .ktext ≤ a ∧ a ≤ Config.hi .kstack) ∨ InRegion .evt a then none
    else some .kSectionRead
  | .user =>
    if (Config.hi .uheap < a ∧ a < Config.lo .ustack) ∨ a > Config.hi .ustack then some .uSectionRead
    else if a < Config.lo .syslib ∨ (Config.hi .syslib < a ∧ a < Config.lo .ubss) then some .uSectionRead
    else none

/-- `WriteStart(a, priv)` (R63, R64), checked in the order the rules give; none is ok. -/
def writeStart (a : Nat) (p : Priv) : Option MemoryError :=
  match p with
  | .kernel =>
    if InRegion .ktext a then some .kTextWrite
    else if a < Config.lo .kdata then some .kSectionWrite
    else if Config.memSize ≤ a then some .kSectionWrite
    else none
  | .user =>
    if ¬((Config.lo .ubss ≤ a ∧ a ≤ Config.hi .uheap) ∨ InRegion .ustack a) then some .uSectionWrite
    else if InRegion .utext a then some .uTextWrite
    else if InRegion .uconst a then some .uConstWrite
    else none

/-- `EDGES` (R59): every region's first byte and the byte past its last. -/
def edges : List Nat := Config.regions.flatMap (fun r => [Config.lo r, Config.hi r + 1])

/-- `Crossing(a, n)` (R65): some edge E has a < E ≤ a + n - 1, in exact integers. -/
def crossing (a n : Nat) : Bool := edges.any (fun e => decide (a < e) && decide (e < a + n))

/-- The error of a read or fetch that crosses an edge (R65, R66). -/
def overread : Priv → MemoryError
  | .kernel => .kOverread
  | .user => .uOverread

/-- `heap(priv)` (R57). -/
def heapRegion : Priv → Region
  | .kernel => .kheap
  | .user => .uheap

/-- `stack(priv)` (R57). -/
def stackRegion : Priv → Region
  | .kernel => .kstack
  | .user => .ustack

/-- The error of a write that starts at `a` and crosses an edge (R65, R67). -/
def overflowError (a : Nat) (p : Priv) : MemoryError :=
  if InRegion (heapRegion p) a then
    match p with
    | .kernel => .kHeapOverflow
    | .user => .uHeapOverflow
  else if InRegion (stackRegion p) a then
    match p with
    | .kernel => .kStackOverflow
    | .user => .uStackOverflow
  else
    match p with
    | .kernel => .kOverflow
    | .user => .uOverflow

/-- The start validator of an access kind (R66). -/
def startError (k : ReadKind) (a : Nat) (p : Priv) : Option MemoryError :=
  match k with
  | .fetch => fetchStart a p
  | .data => readStart a p

/-- `CheckedRead(kind, a, n, priv)` (R66); the value read is zero-extended to a word (R203). -/
def checkedRead (k : ReadKind) (a : Word) (w : Width) (p : Priv) (m : Memory) : Except MemoryError Word :=
  match startError k a.toNat p with
  | some e => .error e
  | none =>
    if crossing a.toNat w.bytes then .error (overread p)
    else .ok (BitVec.ofNat 32 (Memory.readLE m a.toNat w.bytes))

/-- `CheckedWrite(a, n, v, priv)` (R67): the memory after it, or the error, with no byte changed. -/
def checkedWrite (a : Word) (w : Width) (v : Word) (p : Priv) (m : Memory) : Except MemoryError Memory :=
  match writeStart a.toNat p with
  | some e => .error e
  | none =>
    if crossing a.toNat w.bytes then .error (overflowError a.toNat p)
    else .ok (Memory.writeLE m a.toNat w.bytes v.toNat)

/-- The code of a MemoryError (R68, D25). -/
def MemoryError.code : MemoryError → BitVec 8
  | .internal => 0x01#8
  | .kOverflow => 0x10#8
  | .kOverread => 0x11#8
  | .kStackOverflow => 0x12#8
  | .kHeapOverflow => 0x13#8
  | .kTextWrite => 0x14#8
  | .kSectionWrite => 0x15#8
  | .kSectionRead => 0x16#8
  | .kFetchSectionRead => 0x17#8
  | .uOverflow => 0x20#8
  | .uOverread => 0x21#8
  | .uStackOverflow => 0x22#8
  | .uHeapOverflow => 0x23#8
  | .uTextWrite => 0x24#8
  | .uSectionWrite => 0x25#8
  | .uSectionRead => 0x26#8
  | .uFetchSectionRead => 0x27#8
  | .uConstWrite => 0x28#8

end Sys2Proof.Machine
end

