-- ==== Sys2Proof/Machine/Alu.lean ====
section
/-! DEFINITION. The ALU (R150): a pure function of its operation and two operands. -/

namespace Sys2Proof.Machine

/-- The ALU operations (R150, R106). -/
inductive AluOp where
  | add | sub | mul | div | or | and | xor | not | lsl | lsr | asr | pass
deriving DecidableEq, Repr

/-- The amount of a shift: `B[4:0]`, the higher bits ignored (R152, D37). -/
def shiftAmount (b : Word) : Nat := (b.extractLsb' 0 5).toNat

/-- `ALU(op, A, B)` (R150). For `div` it is the unsigned quotient; DIV takes its fatal fault before a zero divisor
gets here (R153). -/
def alu (op : AluOp) (a b : Word) : Word :=
  match op with
  | .add => a + b
  | .sub => a - b
  | .mul => a * b
  | .div => a / b
  | .or => a ||| b
  | .and => a &&& b
  | .xor => a ^^^ b
  | .not => ~~~a
  | .lsl => a <<< shiftAmount b
  | .lsr => a >>> shiftAmount b
  | .asr => a.sshiftRight (shiftAmount b)
  | .pass => 0#32

end Sys2Proof.Machine
end

