-- ==== Sys2Proof/Syntax.lean ====
section
/-! DEFINITION. The instructions of the AruXI core: one constructor per row of the opcode table (R104, R105), with the
operand fields of R93 to R99. Bits that R108 calls ignored have no field. -/

namespace Sys2Proof

/-- The twelve branch conditions of R103, in the order of their numbers 0..11. -/
inductive Cond where
  | eq | ne | ov | nv | mi | pz | cc | cs | gt | ge | lt | le
deriving DecidableEq, Repr

/-- Operand B of an M-type word (R102, R201): a nonzero 9-bit byte offset, or an index register when the
immediate field is the sentinel 0. -/
inductive MemOffset where
  | imm (simm9 : BitVec 9)
  | index (ri : RegIdx)
deriving DecidableEq, Repr

/-- The instructions. `Imm` names the I-form of an opcode (mode bit 0), `Reg` its R-form (mode bit 1) (R92). -/
inductive Instr where
  | nop
  | addImm (rd rs : RegIdx) (imm14 : BitVec 14)
  | addReg (rd rs1 rs2 : RegIdx)
  | addsImm (rd rs : RegIdx) (imm14 : BitVec 14)
  | addsReg (rd rs1 rs2 : RegIdx)
  | subImm (rd rs : RegIdx) (imm14 : BitVec 14)
  | subReg (rd rs1 rs2 : RegIdx)
  | subsImm (rd rs : RegIdx) (imm14 : BitVec 14)
  | subsReg (rd rs1 rs2 : RegIdx)
  | cmpImm (rs : RegIdx) (imm14 : BitVec 14)
  | cmpReg (rs1 rs2 : RegIdx)
  | orImm (rd rs : RegIdx) (imm14 : BitVec 14)
  | orReg (rd rs1 rs2 : RegIdx)
  | andImm (rd rs : RegIdx) (imm14 : BitVec 14)
  | andReg (rd rs1 rs2 : RegIdx)
  | xorImm (rd rs : RegIdx) (imm14 : BitVec 14)
  | xorReg (rd rs1 rs2 : RegIdx)
  | notImm (rd rs : RegIdx) (imm14 : BitVec 14)
  | notReg (rd rs1 rs2 : RegIdx)
  | lslImm (rd rs : RegIdx) (imm14 : BitVec 14)
  | lslReg (rd rs1 rs2 : RegIdx)
  | lsrImm (rd rs : RegIdx) (imm14 : BitVec 14)
  | lsrReg (rd rs1 rs2 : RegIdx)
  | asrImm (rd rs : RegIdx) (imm14 : BitVec 14)
  | asrReg (rd rs1 rs2 : RegIdx)
  | mul (rd rs1 rs2 : RegIdx)
  | div (rd rs1 rs2 : RegIdx)
  | ld (rd rb : RegIdx) (off : MemOffset)
  | ldh (rd rb : RegIdx) (off : MemOffset)
  | ldb (rd rb : RegIdx) (off : MemOffset)
  | str (rdata rb : RegIdx) (off : MemOffset)
  | strh (rdata rb : RegIdx) (off : MemOffset)
  | strb (rdata rb : RegIdx) (off : MemOffset)
  | b (off24 : BitVec 24)
  | call (off24 : BitVec 24)
  | br (rs : RegIdx)
  | ret (rs : RegIdx)
  | bEq (off19 : BitVec 19)
  | bNe (off19 : BitVec 19)
  | bOv (off19 : BitVec 19)
  | bNv (off19 : BitVec 19)
  | bMi (off19 : BitVec 19)
  | bPz (off19 : BitVec 19)
  | bCc (off19 : BitVec 19)
  | bCs (off19 : BitVec 19)
  | bGt (off19 : BitVec 19)
  | bGe (off19 : BitVec 19)
  | bLt (off19 : BitVec 19)
  | bLe (off19 : BitVec 19)
  | syscall
  | hlt
  | si
  | di
  | eret
  | ldir (rd : RegIdx)
  | mvcstr (rs : RegIdx)
  | ldcstr (rd : RegIdx)
  | resr (rd : RegIdx)
deriving DecidableEq, Repr

end Sys2Proof
end

