-- ==== Sys2Proof/Machine/Flags.lean ====
section
/-! DEFINITION. CSTR's bits (R25), the flag computation of ADDS, SUBS and CMP (R160) and the branch conditions (R228). -/

namespace Sys2Proof.Machine

/-- A status word with bit `k` set to `v`, every other bit kept. -/
def setBit (x : Half) (k : Nat) (v : Bool) : Half :=
  if v then x ||| BitVec.twoPow 16 k else x &&& ~~~(BitVec.twoPow 16 k)

/-- `CSTR.F` (R10, R25) of a status word. -/
def cstrGet (x : Half) (f : CstrBit) : Bool := x.getLsbD (Config.cstrPos f)

/-- A status word with the field F written. -/
def cstrSet (x : Half) (f : CstrBit) (v : Bool) : Half := setBit x (Config.cstrPos f) v

/-- The privilege a status word selects: PRIV = 1 is kernel (R28). -/
def privOf (x : Half) : Priv := if cstrGet x .priv then .kernel else .user

/-- The privilege in force: the live CSTR's (R28). -/
def State.priv (s : State) : Priv := privOf s.cstr

/-- `OVF_ADD` at its default (R160, D39): a parameter of the spec, swappable here alone. DESIGN CHOICE of the spec,
unsafe: log entry 12. -/
def ovfAdd (a b r : Word) : Bool := (a.msb == b.msb) && (r.msb != a.msb)

/-- `OVF_SUB` at its default (R160, D39): a parameter of the spec, swappable here alone. DESIGN CHOICE of the spec,
unsafe: log entry 12. -/
def ovfSub (a b r : Word) : Bool := (a.msb != b.msb) && (r.msb != a.msb)

/-- The four condition flags. -/
structure Flags where
  c : Bool
  o : Bool
  n : Bool
  z : Bool
deriving DecidableEq, Repr

/-- The flags of ADDS (R160, the add case), from the ALU inputs and the result. -/
def flagsAdd (a b r : Word) : Flags := ⟨decide (r < a), ovfAdd a b r, r.msb, r == 0#32⟩

/-- The flags of SUBS and CMP (R160, the subtract case). -/
def flagsSub (a b r : Word) : Flags := ⟨decide (b ≤ a), ovfSub a b r, r.msb, r == 0#32⟩

/-- The flags a status word holds (R25). -/
def flagsOf (x : Half) : Flags := ⟨cstrGet x .c, cstrGet x .o, cstrGet x .n, cstrGet x .z⟩

/-- A status word with its four condition flags replaced (R160). -/
def putFlags (x : Half) (f : Flags) : Half :=
  cstrSet (cstrSet (cstrSet (cstrSet x .c f.c) .o f.o) .n f.n) .z f.z

/-- The flag write of Execute: straight into the live CSTR, not through the latch (R131). -/
def writeFlags (f : Flags) (s : State) : State := { s with cstr := putFlags s.cstr f }

/-- `Cond(c)` over the four flags (R228): the source's fixed table. -/
def condHolds (c : Cond) (f : Flags) : Bool :=
  match c with
  | .eq => f.z
  | .ne => !f.z
  | .ov => f.o
  | .nv => !f.o
  | .mi => f.n
  | .pz => !f.n
  | .cc => !f.c
  | .cs => f.c
  | .gt => (f.n == f.o) && !f.z
  | .ge => f.n == f.o
  | .lt => f.n != f.o
  | .le => (f.n != f.o) || f.z

end Sys2Proof.Machine
end

