-- ==== Sys2Proof/Machine/Operands.lean ====
section
/-! DEFINITION. Every operand form (R101, R102, R128): register reads with the SP alias, immediates, M-type operands and
branch offsets. -/

namespace Sys2Proof.Machine

/-- `x[i]` (R21), on every read port: index 31 is SP. -/
def readReg (i : RegIdx) (s : State) : Word :=
  if h : i.toNat < 31 then s.gpr[i.toNat] else s.sp

/-- Operand B of an I-type word: `zext_14(imm14)` (R101, R128). -/
def immI (imm14 : BitVec 14) : Word := imm14.setWidth 32

/-- Operand B of an M-type word (R102, R201): the sign-extended byte offset, or the index register. -/
def memOperand (off : MemOffset) (s : State) : Word :=
  match off with
  | .imm simm9 => simm9.signExtend 32
  | .index ri => readReg ri s

/-- The effective address of an M-type word (R202): the ALU sum of base and operand B, modulo 2^32. -/
def effAddr (rb : RegIdx) (off : MemOffset) (s : State) : Word := alu .add (readReg rb s) (memOperand off s)

/-- The byte offset of a Bi-type word: `sext_24(off24) * 4` (R101). -/
def offsetBi (off24 : BitVec 24) : Word := off24.signExtend 32 * 4#32

/-- The byte offset of a Bc-type word: `sext_19(off19) * 4` (R101). -/
def offsetBc (off19 : BitVec 19) : Word := off19.signExtend 32 * 4#32

/-- `cur` (R10): the address the instruction was fetched from. The fetch has advanced `pc` to `cur + 4` (R121). -/
def cur (s : State) : Word := s.pc - 4#32

end Sys2Proof.Machine
end

