-- ==== Sys2Proof/Machine/Ops.lean ====
section
/-! DEFINITION. The named operations the instructions share: the CSTR commit (R40), register writes (R22), calls to the
host (R296), fatal faults (R290), exception delivery (R280), the halt check (R294) and the exception return (R248). -/

namespace Sys2Proof.Machine

/-- `RegFileAccess()` (R40): commit a pending CSTR value, marker cleared, and clear the latch. -/
def regFileAccess (s : State) : State :=
  if s.cstrLatch.getLsbD Config.pendingPos then
    { s with cstr := setBit s.cstrLatch Config.pendingPos false, cstrLatch := 0#16 }
  else s

/-- The register write without the commit check: index 30 drops the value, index 31 is SP (R22). -/
def putReg (i : RegIdx) (v : Word) (s : State) : State :=
  if i = 30#5 then s
  else if h : i.toNat < 31 then { s with gpr := s.gpr.set i.toNat v h }
  else { s with sp := v }

/-- `x[i] <- v` (R22): the commit check, then the write. -/
def writeReg (i : RegIdx) (v : Word) (s : State) : State := putReg i v (regFileAccess s)

/-- Does a call to the host end the core's execution (R290)? -/
def CoreCall.isFatal : CoreCall → Bool
  | .deliverFatal _ => true
  | .deliverCoredump | .haltedClean | .requestIo _ => false

/-- Make a call to the host (R296); a fatal report sets `fatal_flag` for good (R290, R35). -/
def callHost (c : CoreCall) (s : State) : State :=
  { s with outbox := c :: s.outbox, fatalFlag := s.fatalFlag || CoreCall.isFatal c }

/-- `fatal(reason)` (R290): report, set the flag, and leave the rest of the state as it stands. -/
def fatal (r : FatalReason) (s : State) : State := callHost (.deliverFatal r) s

/-- The exception-type tag of a guest exception (R271, D25). -/
def GuestException.tag : GuestException → BitVec 8
  | .syscall _ => 0#8
  | .instrAbort _ => 1#8
  | .invalidInstr => 2#8
  | .privViolation => 3#8
  | .dataAbort _ => 4#8

/-- The ESR value of a guest exception (R276): the number for SYSCALL, else tag and detail. -/
def GuestException.esr : GuestException → Half
  | .syscall number => number
  | .instrAbort e => 0x01#8 ++ MemoryError.code e
  | .invalidInstr => 0x0200#16
  | .privViolation => 0x0300#16
  | .dataAbort e => 0x04#8 ++ MemoryError.code e

/-- The kernel-privilege read of the active process-state cell (R38, R280). -/
def activePs (s : State) : Except MemoryError Word :=
  checkedRead .data Config.activePsPtr .word .kernel s.mem

/-- What delivery does to the registers (R280, R281): ESR, PRIV, `pc` and `status`, and nothing else (R282). -/
def enterHandler (e : GuestException) (s : State) : State :=
  { s with
    esr := GuestException.esr e
    cstr := cstrSet s.cstr .priv true
    pc := Config.excVector
    status := .exception }

/-- Save `pc` and the tag into the process-state record at `p`, then enter the handler (R280). A write the engine
does not admit is fatal, with what was written before it kept (log entry 20). -/
def deliverTo (p : Word) (e : GuestException) (s : State) : State :=
  match checkedWrite (p + Config.psSavedIp) .word s.pc .kernel s.mem with
  | .error _ => fatal .psAccess s
  | .ok m1 =>
    match checkedWrite (p + Config.psTag) .byte ((GuestException.tag e).setWidth 32) .kernel m1 with
    | .error _ => fatal .psAccess { s with mem := m1 }
    | .ok m2 => enterHandler e { s with mem := m2 }

/-- `Deliver(tag, code)` (R280, R281): taking a guest exception. The saved address is `pc` as the fetch left it. -/
def deliver (e : GuestException) (s : State) : State :=
  match activePs s with
  | .error _ => fatal .psAccess s
  | .ok p => if p = 0#32 then enterHandler e s else deliverTo p e s

/-- ERET's effect (R248): `pc` from the active process-state record, PRIV cleared at once, nothing else restored. -/
def returnFromException (s : State) : State :=
  match activePs s with
  | .error _ => fatal .eretNoProcess s
  | .ok p =>
    if p = 0#32 then fatal .eretNoProcess s
    else
      match checkedRead .data (p + Config.psSavedIp) .word .kernel s.mem with
      | .error _ => fatal .psAccess s
      | .ok ip => { s with pc := ip, cstr := cstrSet s.cstr .priv false }

/-- What the halt check reports (R294): a fatal fault, a coredump, or a clean exit. -/
def haltVerdict (s : State) : CoreCall :=
  match activePs s with
  | .error _ => .deliverFatal .psAccess
  | .ok p =>
    if p = 0#32 then .haltedClean
    else
      match checkedRead .data (p + Config.psTag) .byte .kernel s.mem with
      | .error _ => .deliverFatal .psAccess
      | .ok t => if t = 0#32 then .haltedClean else .deliverCoredump

/-- `HaltCheck()` (R294), run on every entry to HALTED. -/
def haltCheck (s : State) : State := callHost (haltVerdict s) s

/-- `AccessError(e)` of a load or store (R212): a data abort in user mode, fatal in kernel mode. -/
def accessError (e : MemoryError) (s : State) : State :=
  match s.priv with
  | .user => deliver (.dataAbort e) s
  | .kernel => fatal (.kernelData e) s

/-- The Decode privilege check of a privileged sub-opcode (R125, R240): the live PRIV, before the commit. In kernel mode
the operand read commits and the instruction's effect follows (R127). -/
def privileged (effect : State → State) (s : State) : State :=
  match s.priv with
  | .user => deliver .privViolation s
  | .kernel => effect (regFileAccess s)

end Sys2Proof.Machine
end

