-- ==== Sys2Proof/Machine/Arith.lean ====
section
/-! DEFINITION. The shared ALU instruction shapes (R127, R128, R131, R135, R136), and NOP, ADD, ADDS, SUB, SUBS, CMP, MUL and
DIV (R151 to R168). A meaning runs on the state the fetch left: `pc` is `cur + 4`. -/

namespace Sys2Proof.Machine

/-- An I-form ALU instruction without flags: the operand read commits, then `x[rd] <- ALU(op, x[rs], imm)`. -/
def aluImm (op : AluOp) (rd rs : RegIdx) (imm14 : BitVec 14) (s : State) : State :=
  let s := regFileAccess s
  writeReg rd (alu op (readReg rs s) (immI imm14)) s

/-- An R-form ALU instruction without flags: `x[rd] <- ALU(op, x[rs1], x[rs2])`. -/
def aluReg (op : AluOp) (rd rs1 rs2 : RegIdx) (s : State) : State :=
  let s := regFileAccess s
  writeReg rd (alu op (readReg rs1 s) (readReg rs2 s)) s

/-- The flag write of Execute and the write-back of ADDS (R163), on a committed state. -/
def addWithFlags (rd : RegIdx) (a b : Word) (s : State) : State :=
  let r := alu .add a b
  writeReg rd r (writeFlags (flagsAdd a b r) s)

/-- The flag write of Execute and the write-back of SUBS (R165), on a committed state. -/
def subWithFlags (rd : RegIdx) (a b : Word) (s : State) : State :=
  let r := alu .sub a b
  writeReg rd r (writeFlags (flagsSub a b r) s)

/-- CMP (R166): the flags of SUBS and no write-back. -/
def compareFlags (a b : Word) (s : State) : State := writeFlags (flagsSub a b (alu .sub a b)) s

/-- NOP (R151): the ALU passes 0, nothing is written; the operand read still commits. -/
def execNop (s : State) : Host.Outcome State Fault Refusal := .next (regFileAccess s)

/-- ADD, I-form (R162). -/
def execAddImm (rd rs : RegIdx) (imm14 : BitVec 14) (s : State) : Host.Outcome State Fault Refusal :=
  .next (aluImm .add rd rs imm14 s)

/-- ADD, R-form (R162). -/
def execAddReg (rd rs1 rs2 : RegIdx) (s : State) : Host.Outcome State Fault Refusal :=
  .next (aluReg .add rd rs1 rs2 s)

/-- ADDS, I-form (R163). -/
def execAddsImm (rd rs : RegIdx) (imm14 : BitVec 14) (s : State) : Host.Outcome State Fault Refusal :=
  let s := regFileAccess s
  .next (addWithFlags rd (readReg rs s) (immI imm14) s)

/-- ADDS, R-form (R163). -/
def execAddsReg (rd rs1 rs2 : RegIdx) (s : State) : Host.Outcome State Fault Refusal :=
  let s := regFileAccess s
  .next (addWithFlags rd (readReg rs1 s) (readReg rs2 s) s)

/-- SUB, I-form (R164). -/
def execSubImm (rd rs : RegIdx) (imm14 : BitVec 14) (s : State) : Host.Outcome State Fault Refusal :=
  .next (aluImm .sub rd rs imm14 s)

/-- SUB, R-form (R164). -/
def execSubReg (rd rs1 rs2 : RegIdx) (s : State) : Host.Outcome State Fault Refusal :=
  .next (aluReg .sub rd rs1 rs2 s)

/-- SUBS, I-form (R165). -/
def execSubsImm (rd rs : RegIdx) (imm14 : BitVec 14) (s : State) : Host.Outcome State Fault Refusal :=
  let s := regFileAccess s
  .next (subWithFlags rd (readReg rs s) (immI imm14) s)

/-- SUBS, R-form (R165). -/
def execSubsReg (rd rs1 rs2 : RegIdx) (s : State) : Host.Outcome State Fault Refusal :=
  let s := regFileAccess s
  .next (subWithFlags rd (readReg rs1 s) (readReg rs2 s) s)

/-- CMP, I-form (R166). -/
def execCmpImm (rs : RegIdx) (imm14 : BitVec 14) (s : State) : Host.Outcome State Fault Refusal :=
  let s := regFileAccess s
  .next (compareFlags (readReg rs s) (immI imm14) s)

/-- CMP, R-form (R166). -/
def execCmpReg (rs1 rs2 : RegIdx) (s : State) : Host.Outcome State Fault Refusal :=
  let s := regFileAccess s
  .next (compareFlags (readReg rs1 s) (readReg rs2 s) s)

/-- MUL (R167): the low 32 bits of the product. -/
def execMul (rd rs1 rs2 : RegIdx) (s : State) : Host.Outcome State Fault Refusal :=
  .next (aluReg .mul rd rs1 rs2 s)

/-- DIV (R168, R153): a zero divisor is a fatal fault in Execute, in either privilege; else the unsigned quotient. -/
def execDiv (rd rs1 rs2 : RegIdx) (s : State) : Host.Outcome State Fault Refusal :=
  let s := regFileAccess s
  if readReg rs2 s = 0#32 then .next (fatal .divZero s)
  else .next (writeReg rd (alu .div (readReg rs1 s) (readReg rs2 s)) s)

end Sys2Proof.Machine
end

