-- ==== Sys2Proof/Machine/Branch.lean ====
section
/-! DEFINITION. Control transfer (R220 to R228): targets are set in Execute and never validated there (R221). No delay slot. -/

namespace Sys2Proof.Machine

/-- A register-indirect transfer (R224, R225): `pc <- x[rs]`, every bit of it. -/
def branchReg (rs : RegIdx) (s : State) : State :=
  let s := regFileAccess s
  { s with pc := readReg rs s }

/-- A conditional branch (R227): the condition is evaluated in Decode over the live flags, before the commit (R126);
the target is relative to `cur`. -/
def branchCond (c : Cond) (off19 : BitVec 19) (s : State) : State :=
  let take := condHolds c (flagsOf s.cstr)
  let s := regFileAccess s
  if take then { s with pc := cur s + offsetBc off19 } else s

/-- B (R222). -/
def execB (off24 : BitVec 24) (s : State) : Host.Outcome State Fault Refusal :=
  let s := regFileAccess s
  .next { s with pc := cur s + offsetBi off24 }

/-- CALL (R223): the ALU inputs become (cur, 4), and the sum is written to the link register. -/
def execCall (off24 : BitVec 24) (s : State) : Host.Outcome State Fault Refusal :=
  let s := regFileAccess s
  .next (writeReg Config.linkReg (alu .add (cur s) 4#32) { s with pc := cur s + offsetBi off24 })

/-- BR (R224). -/
def execBr (rs : RegIdx) (s : State) : Host.Outcome State Fault Refusal := .next (branchReg rs s)

/-- RET (R225): the effect of BR (D43); it restores no privilege. -/
def execRet (rs : RegIdx) (s : State) : Host.Outcome State Fault Refusal := .next (branchReg rs s)

/-- B.EQ (R227, R228). -/
def execBEq (off19 : BitVec 19) (s : State) : Host.Outcome State Fault Refusal :=
  .next (branchCond .eq off19 s)

/-- B.NE (R227, R228). -/
def execBNe (off19 : BitVec 19) (s : State) : Host.Outcome State Fault Refusal :=
  .next (branchCond .ne off19 s)

/-- B.OV (R227, R228). -/
def execBOv (off19 : BitVec 19) (s : State) : Host.Outcome State Fault Refusal :=
  .next (branchCond .ov off19 s)

/-- B.NV (R227, R228). -/
def execBNv (off19 : BitVec 19) (s : State) : Host.Outcome State Fault Refusal :=
  .next (branchCond .nv off19 s)

/-- B.MI (R227, R228). -/
def execBMi (off19 : BitVec 19) (s : State) : Host.Outcome State Fault Refusal :=
  .next (branchCond .mi off19 s)

/-- B.PZ (R227, R228). -/
def execBPz (off19 : BitVec 19) (s : State) : Host.Outcome State Fault Refusal :=
  .next (branchCond .pz off19 s)

/-- B.CC (R227, R228). -/
def execBCc (off19 : BitVec 19) (s : State) : Host.Outcome State Fault Refusal :=
  .next (branchCond .cc off19 s)

/-- B.CS (R227, R228). -/
def execBCs (off19 : BitVec 19) (s : State) : Host.Outcome State Fault Refusal :=
  .next (branchCond .cs off19 s)

/-- B.GT (R227, R228). -/
def execBGt (off19 : BitVec 19) (s : State) : Host.Outcome State Fault Refusal :=
  .next (branchCond .gt off19 s)

/-- B.GE (R227, R228). -/
def execBGe (off19 : BitVec 19) (s : State) : Host.Outcome State Fault Refusal :=
  .next (branchCond .ge off19 s)

/-- B.LT (R227, R228). -/
def execBLt (off19 : BitVec 19) (s : State) : Host.Outcome State Fault Refusal :=
  .next (branchCond .lt off19 s)

/-- B.LE (R227, R228). -/
def execBLe (off19 : BitVec 19) (s : State) : Host.Outcome State Fault Refusal :=
  .next (branchCond .le off19 s)

end Sys2Proof.Machine
end

