-- ==== Sys2Proof/Machine/LoadStore.lean ====
section
/-! DEFINITION. Loads and stores (R200 to R214): the address is the ALU sum of Execute, the access is the Memory stage's, under
the privilege in force after the commit (R134, R212). -/

namespace Sys2Proof.Machine

/-- A load of a width (R203, R205): the value, zero-extended, or the access error with no register written. -/
def load (w : Width) (rd rb : RegIdx) (off : MemOffset) (s : State) : State :=
  let s := regFileAccess s
  match checkedRead .data (effAddr rb off s) w s.priv s.mem with
  | .error e => accessError e s
  | .ok v => writeReg rd v s

/-- A store of a width (R204, R209): the low bytes of the valex register, or the access error with no byte written. -/
def store (w : Width) (rdata rb : RegIdx) (off : MemOffset) (s : State) : State :=
  let s := regFileAccess s
  match checkedWrite (effAddr rb off s) w (readReg rdata s) s.priv s.mem with
  | .error e => accessError e s
  | .ok m => { s with mem := m }

/-- LD: 4 bytes (R205). -/
def execLd (rd rb : RegIdx) (off : MemOffset) (s : State) : Host.Outcome State Fault Refusal :=
  .next (load .word rd rb off s)

/-- LDH: 2 bytes (R206). -/
def execLdh (rd rb : RegIdx) (off : MemOffset) (s : State) : Host.Outcome State Fault Refusal :=
  .next (load .half rd rb off s)

/-- LDB: 1 byte (R207). -/
def execLdb (rd rb : RegIdx) (off : MemOffset) (s : State) : Host.Outcome State Fault Refusal :=
  .next (load .byte rd rb off s)

/-- STR: 4 bytes (R209). -/
def execStr (rdata rb : RegIdx) (off : MemOffset) (s : State) : Host.Outcome State Fault Refusal :=
  .next (store .word rdata rb off s)

/-- STRH: 2 bytes (R210). -/
def execStrh (rdata rb : RegIdx) (off : MemOffset) (s : State) : Host.Outcome State Fault Refusal :=
  .next (store .half rdata rb off s)

/-- STRB: 1 byte (R211). -/
def execStrb (rdata rb : RegIdx) (off : MemOffset) (s : State) : Host.Outcome State Fault Refusal :=
  .next (store .byte rdata rb off s)

end Sys2Proof.Machine
end

