-- ==== Sys2Proof/Machine/Logic.lean ====
section
/-! DEFINITION. The logical and shift instructions (R170 to R177): none writes a flag. -/

namespace Sys2Proof.Machine

/-- OR, I-form (R170). -/
def execOrImm (rd rs : RegIdx) (imm14 : BitVec 14) (s : State) : Host.Outcome State Fault Refusal :=
  .next (aluImm .or rd rs imm14 s)

/-- OR, R-form (R170). -/
def execOrReg (rd rs1 rs2 : RegIdx) (s : State) : Host.Outcome State Fault Refusal :=
  .next (aluReg .or rd rs1 rs2 s)

/-- AND, I-form (R171). -/
def execAndImm (rd rs : RegIdx) (imm14 : BitVec 14) (s : State) : Host.Outcome State Fault Refusal :=
  .next (aluImm .and rd rs imm14 s)

/-- AND, R-form (R171). -/
def execAndReg (rd rs1 rs2 : RegIdx) (s : State) : Host.Outcome State Fault Refusal :=
  .next (aluReg .and rd rs1 rs2 s)

/-- XOR, I-form (R172). -/
def execXorImm (rd rs : RegIdx) (imm14 : BitVec 14) (s : State) : Host.Outcome State Fault Refusal :=
  .next (aluImm .xor rd rs imm14 s)

/-- XOR, R-form (R172). -/
def execXorReg (rd rs1 rs2 : RegIdx) (s : State) : Host.Outcome State Fault Refusal :=
  .next (aluReg .xor rd rs1 rs2 s)

/-- NOT, I-form (R173): the complement of the primary source; operand B is ignored (D38). -/
def execNotImm (rd rs : RegIdx) (imm14 : BitVec 14) (s : State) : Host.Outcome State Fault Refusal :=
  .next (aluImm .not rd rs imm14 s)

/-- NOT, R-form (R173): the complement of the primary source; operand B is ignored (D38). -/
def execNotReg (rd rs1 rs2 : RegIdx) (s : State) : Host.Outcome State Fault Refusal :=
  .next (aluReg .not rd rs1 rs2 s)

/-- LSL, I-form (R175). -/
def execLslImm (rd rs : RegIdx) (imm14 : BitVec 14) (s : State) : Host.Outcome State Fault Refusal :=
  .next (aluImm .lsl rd rs imm14 s)

/-- LSL, R-form (R175). -/
def execLslReg (rd rs1 rs2 : RegIdx) (s : State) : Host.Outcome State Fault Refusal :=
  .next (aluReg .lsl rd rs1 rs2 s)

/-- LSR, I-form (R176). -/
def execLsrImm (rd rs : RegIdx) (imm14 : BitVec 14) (s : State) : Host.Outcome State Fault Refusal :=
  .next (aluImm .lsr rd rs imm14 s)

/-- LSR, R-form (R176). -/
def execLsrReg (rd rs1 rs2 : RegIdx) (s : State) : Host.Outcome State Fault Refusal :=
  .next (aluReg .lsr rd rs1 rs2 s)

/-- ASR, I-form (R177). -/
def execAsrImm (rd rs : RegIdx) (imm14 : BitVec 14) (s : State) : Host.Outcome State Fault Refusal :=
  .next (aluImm .asr rd rs imm14 s)

/-- ASR, R-form (R177). -/
def execAsrReg (rd rs1 rs2 : RegIdx) (s : State) : Host.Outcome State Fault Refusal :=
  .next (aluReg .asr rd rs1 rs2 s)

end Sys2Proof.Machine
end

