-- ==== Sys2Proof/Machine/System.lean ====
section
/-! DEFINITION. The system instructions (R240 to R252). All but SYSCALL are privileged: in user mode Decode takes the privilege
violation instead (R125). -/

namespace Sys2Proof.Machine

/-- SYSCALL (R241): taken in either privilege; r0 is read after the commit. -/
def execSyscall (s : State) : Host.Outcome State Fault Refusal :=
  let s := regFileAccess s
  .next (deliver (.syscall ((readReg 0#5 s).setWidth 16)) s)

/-- The IO request descriptor as r0, r1 and r2 stand (R244, D53). -/
def ioDescriptor (s : State) : IoRequest := ⟨readReg 0#5 s, readReg 1#5 s, readReg 2#5 s⟩

/-- The IO-flavoured halt (R243, R244): IO_WAIT, and the request staged or, by the draw of R291, the fatal fault
INTERNAL (log entries 8 and 18). -/
def stageIo (s : State) : State :=
  let waiting := { s with status := .ioWait, ioDraws := s.ioDraws + 1 }
  if Config.stagingSucceeds s.ioDraws then
    callHost (.requestIo (ioDescriptor s)) { waiting with ioRequest := some (ioDescriptor s) }
  else fatal .internal waiting

/-- The plain halt (R243): HALTED, and the halt check. -/
def plainHalt (s : State) : State := haltCheck { s with status := .halted }

/-- HLT's effect (R243): its flavour is `CSTR.IOH`, read after the commit. -/
def haltEffect (s : State) : State := if cstrGet s.cstr .ioh then stageIo s else plainHalt s

/-- HLT (R243). -/
def execHlt (s : State) : Host.Outcome State Fault Refusal := .next (privileged haltEffect s)

/-- Write `CSTR.IE` directly, not through the latch (R245, R246). -/
def setIe (v : Bool) (s : State) : State := { s with cstr := cstrSet s.cstr .ie v }

/-- SI (R245): set interrupt enable. -/
def execSi (s : State) : Host.Outcome State Fault Refusal := .next (privileged (setIe true) s)

/-- DI (R246): clear interrupt enable. -/
def execDi (s : State) : Host.Outcome State Fault Refusal := .next (privileged (setIe false) s)

/-- ERET (R248). -/
def execEret (s : State) : Host.Outcome State Fault Refusal := .next (privileged returnFromException s)

/-- LDIR (R250): `x[rd] <- pc`, which is `cur + 4`. -/
def execLdir (rd : RegIdx) (s : State) : Host.Outcome State Fault Refusal :=
  .next (privileged (fun s => writeReg rd s.pc s) s)

/-- MVCSTR's write-back (R251): the commit check, then the latch, bit 15 of the source replaced by the marker. -/
def latchCstr (v : Word) (s : State) : State :=
  let s := regFileAccess s
  { s with cstrLatch := setBit (v.setWidth 16) Config.pendingPos true }

/-- MVCSTR (R251, R132): the write value is the raw source register; no flag and no general register is written. -/
def execMvcstr (rs : RegIdx) (s : State) : Host.Outcome State Fault Refusal :=
  .next (privileged (fun s => latchCstr (readReg rs s) s) s)

/-- LDCSTR (R249): the committed CSTR, zero-extended. -/
def execLdcstr (rd : RegIdx) (s : State) : Host.Outcome State Fault Refusal :=
  .next (privileged (fun s => writeReg rd (s.cstr.setWidth 32) s) s)

/-- RESR (R252): ESR, zero-extended. -/
def execResr (rd : RegIdx) (s : State) : Host.Outcome State Fault Refusal :=
  .next (privileged (fun s => writeReg rd (s.esr.setWidth 32) s) s)

end Sys2Proof.Machine
end

