-- ==== Sys2Proof/Machine/Dispatch.lean ====
section
/-! DEFINITION. One arm per constructor of Instr: Decode's checks after classification, Execute, Memory and write-back (R120). -/

namespace Sys2Proof.Machine

def exec (i : Instr) (s : State) : Host.Outcome State Fault Refusal :=
  match i with
  | .nop => Sys2Proof.Machine.execNop s
  | .addImm rd rs imm14 => Sys2Proof.Machine.execAddImm rd rs imm14 s
  | .addReg rd rs1 rs2 => Sys2Proof.Machine.execAddReg rd rs1 rs2 s
  | .addsImm rd rs imm14 => Sys2Proof.Machine.execAddsImm rd rs imm14 s
  | .addsReg rd rs1 rs2 => Sys2Proof.Machine.execAddsReg rd rs1 rs2 s
  | .subImm rd rs imm14 => Sys2Proof.Machine.execSubImm rd rs imm14 s
  | .subReg rd rs1 rs2 => Sys2Proof.Machine.execSubReg rd rs1 rs2 s
  | .subsImm rd rs imm14 => Sys2Proof.Machine.execSubsImm rd rs imm14 s
  | .subsReg rd rs1 rs2 => Sys2Proof.Machine.execSubsReg rd rs1 rs2 s
  | .cmpImm rs imm14 => Sys2Proof.Machine.execCmpImm rs imm14 s
  | .cmpReg rs1 rs2 => Sys2Proof.Machine.execCmpReg rs1 rs2 s
  | .orImm rd rs imm14 => Sys2Proof.Machine.execOrImm rd rs imm14 s
  | .orReg rd rs1 rs2 => Sys2Proof.Machine.execOrReg rd rs1 rs2 s
  | .andImm rd rs imm14 => Sys2Proof.Machine.execAndImm rd rs imm14 s
  | .andReg rd rs1 rs2 => Sys2Proof.Machine.execAndReg rd rs1 rs2 s
  | .xorImm rd rs imm14 => Sys2Proof.Machine.execXorImm rd rs imm14 s
  | .xorReg rd rs1 rs2 => Sys2Proof.Machine.execXorReg rd rs1 rs2 s
  | .notImm rd rs imm14 => Sys2Proof.Machine.execNotImm rd rs imm14 s
  | .notReg rd rs1 rs2 => Sys2Proof.Machine.execNotReg rd rs1 rs2 s
  | .lslImm rd rs imm14 => Sys2Proof.Machine.execLslImm rd rs imm14 s
  | .lslReg rd rs1 rs2 => Sys2Proof.Machine.execLslReg rd rs1 rs2 s
  | .lsrImm rd rs imm14 => Sys2Proof.Machine.execLsrImm rd rs imm14 s
  | .lsrReg rd rs1 rs2 => Sys2Proof.Machine.execLsrReg rd rs1 rs2 s
  | .asrImm rd rs imm14 => Sys2Proof.Machine.execAsrImm rd rs imm14 s
  | .asrReg rd rs1 rs2 => Sys2Proof.Machine.execAsrReg rd rs1 rs2 s
  | .mul rd rs1 rs2 => Sys2Proof.Machine.execMul rd rs1 rs2 s
  | .div rd rs1 rs2 => Sys2Proof.Machine.execDiv rd rs1 rs2 s
  | .ld rd rb off => Sys2Proof.Machine.execLd rd rb off s
  | .ldh rd rb off => Sys2Proof.Machine.execLdh rd rb off s
  | .ldb rd rb off => Sys2Proof.Machine.execLdb rd rb off s
  | .str rdata rb off => Sys2Proof.Machine.execStr rdata rb off s
  | .strh rdata rb off => Sys2Proof.Machine.execStrh rdata rb off s
  | .strb rdata rb off => Sys2Proof.Machine.execStrb rdata rb off s
  | .b off24 => Sys2Proof.Machine.execB off24 s
  | .call off24 => Sys2Proof.Machine.execCall off24 s
  | .br rs => Sys2Proof.Machine.execBr rs s
  | .ret rs => Sys2Proof.Machine.execRet rs s
  | .bEq off19 => Sys2Proof.Machine.execBEq off19 s
  | .bNe off19 => Sys2Proof.Machine.execBNe off19 s
  | .bOv off19 => Sys2Proof.Machine.execBOv off19 s
  | .bNv off19 => Sys2Proof.Machine.execBNv off19 s
  | .bMi off19 => Sys2Proof.Machine.execBMi off19 s
  | .bPz off19 => Sys2Proof.Machine.execBPz off19 s
  | .bCc off19 => Sys2Proof.Machine.execBCc off19 s
  | .bCs off19 => Sys2Proof.Machine.execBCs off19 s
  | .bGt off19 => Sys2Proof.Machine.execBGt off19 s
  | .bGe off19 => Sys2Proof.Machine.execBGe off19 s
  | .bLt off19 => Sys2Proof.Machine.execBLt off19 s
  | .bLe off19 => Sys2Proof.Machine.execBLe off19 s
  | .syscall => Sys2Proof.Machine.execSyscall s
  | .hlt => Sys2Proof.Machine.execHlt s
  | .si => Sys2Proof.Machine.execSi s
  | .di => Sys2Proof.Machine.execDi s
  | .eret => Sys2Proof.Machine.execEret s
  | .ldir rd => Sys2Proof.Machine.execLdir rd s
  | .mvcstr rs => Sys2Proof.Machine.execMvcstr rs s
  | .ldcstr rd => Sys2Proof.Machine.execLdcstr rd s
  | .resr rd => Sys2Proof.Machine.execResr rd s

end Sys2Proof.Machine
end

