-- ==== Sys2Proof/WellFormed.lean ====
section
/-! DEFINITION. What an encoding admits: an M-type immediate is not the sentinel 0 (R102, R201). Every other operand's
type holds exactly the values its field can hold. Beside it, the order constraints a partition table must meet (R55, I10). -/

namespace Sys2Proof

/-- An M-type operand the encoding can express: an immediate of 0 would read as an index register (R201). -/
def MemOffset.wf : MemOffset → Bool
  | .imm simm9 => simm9 != 0#9
  | .index _ => true

/-- The well-formed instructions: those some word decodes to. -/
def Instr.wf : Instr → Bool
  | .ld _ _ off | .ldh _ _ off | .ldb _ _ off => off.wf
  | .str _ _ off | .strh _ _ off | .strb _ _ off => off.wf
  | .nop | .syscall | .hlt | .si | .di | .eret => true
  | .addImm _ _ _ | .addsImm _ _ _ | .subImm _ _ _ | .subsImm _ _ _ | .cmpImm _ _ => true
  | .addReg _ _ _ | .addsReg _ _ _ | .subReg _ _ _ | .subsReg _ _ _ | .cmpReg _ _ => true
  | .orImm _ _ _ | .andImm _ _ _ | .xorImm _ _ _ | .notImm _ _ _ => true
  | .orReg _ _ _ | .andReg _ _ _ | .xorReg _ _ _ | .notReg _ _ _ => true
  | .lslImm _ _ _ | .lsrImm _ _ _ | .asrImm _ _ _ => true
  | .lslReg _ _ _ | .lsrReg _ _ _ | .asrReg _ _ _ => true
  | .mul _ _ _ | .div _ _ _ => true
  | .b _ | .call _ | .br _ | .ret _ => true
  | .bEq _ | .bNe _ | .bOv _ | .bNv _ | .bMi _ | .bPz _ => true
  | .bCc _ | .bCs _ | .bGt _ | .bGe _ | .bLt _ | .bLe _ => true
  | .ldir _ | .mvcstr _ | .ldcstr _ | .resr _ => true

/-- The order and adjacency constraints of R55: a map that breaks them is refused (I10). -/
def mapOrdered (m : Region → Bounds) (memSize : Nat) : Bool :=
  Config.regions.all (fun r => (m r).lo ≤ (m r).hi)
    && (m .evt).hi < (m .ktext).lo
    && (m .ktext).hi + 1 == (m .kdata).lo
    && (m .kdata).hi + 1 == (m .kheap).lo
    && (m .kheap).hi + 1 == (m .kstack).lo
    && (m .kstack).hi < (m .syslib).lo
    && (m .syslib).hi < (m .ubss).lo
    && (m .ubss).hi + 1 == (m .uconst).lo
    && (m .uconst).hi + 1 == (m .udata).lo
    && (m .udata).hi + 1 == (m .utext).lo
    && (m .utext).hi + 1 == (m .uheap).lo
    && (m .uheap).hi < (m .ustack).lo
    && (m .ustack).hi < memSize
    && memSize ≤ 2 ^ 32

end Sys2Proof
end

