-- ==== Sys2Proof/Decode.lean ====
section
/-! DEFINITION. Decoding (R90 to R110), total on every word and every list of bytes, rejecting by name; and after it the
encoder. Both take the opcode, sub-opcode and condition numbers and the mode bit from the same parameters, which stand
first: they are the spec's choices D1, D2, D4, D5 (log entry 9). -/

namespace Sys2Proof

/-- Why a word or a byte list is no instruction. The first three are the OP_ERROR cases of R107. -/
inductive DecodeError where
  /-- `op8` is one of the 217 unmapped bytes (R107 case 1). -/
  | unmappedOpcode (op8 : BitVec 8)
  /-- `op8 = 0xF0` and `sub` is 9..31 (R107 case 2). -/
  | unmappedSubOpcode (sub : BitVec 5)
  /-- `op8 = 0x64` and `cond` is 12..31 (R107 case 3). -/
  | unmappedCondition (cond : BitVec 5)
  /-- Fewer than the four bytes of a word (R90): the fetch never hands the decoder such a list. -/
  | truncated
deriving DecidableEq, Repr

/-- The symbolic opcodes of the top-level table (R104); `imm` and `reg` are the two forms of the mode bit (R92). -/
inductive Sym where
  | nop
  | addI | addR | addsI | addsR | subI | subR | subsI | subsR | cmpI | cmpR | mul | div
  | orI | orR | andI | andR | xorI | xorR | notI | notR
  | lslI | lslR | lsrI | lsrR | asrI | asrR
  | ld | ldh | ldb | str | strh | strb
  | b | call | br | ret | bcc
  | sys
deriving DecidableEq, Repr

/-- The system sub-opcodes (R105). -/
inductive SysSym where
  | syscall | hlt | si | di | eret | ldir | mvcstr | ldcstr | resr
deriving DecidableEq, Repr

/-- The two forms of an arithmetic or logic operation (R92): immediate and register. -/
inductive Form where
  | imm | reg
deriving DecidableEq, Repr

/-! ### The encoding parameters of R8: `MODE_BIT`, `OPC` and the condition numbers

The decode tables and the encoder below take every number from these. -/

/-- `MODE_BIT`: the bit of the instruction word that selects the I-form or the R-form (R8, R92, D2). It lies in `op8`,
bits 31:24. Log entry 9. -/
def Config.modeBit : Nat := 24

/-- The value of the mode bit that selects a form (R92, D2): 0 is the immediate form. Log entry 9. -/
def Config.modeValue : Form → Bool
  | .imm => false
  | .reg => true

/-- An opcode byte with its mode bit set for a form (R92), every other bit as given. -/
def withMode (f : Form) (op8 : BitVec 8) : BitVec 8 :=
  if Config.modeValue f then op8 ||| BitVec.twoPow 8 (Config.modeBit - 24)
  else op8 &&& ~~~BitVec.twoPow 8 (Config.modeBit - 24)

/-- `OPC`: the byte value of every symbolic opcode (R8, R104, D1). An operation's two forms, and MUL and DIV, which are
always register-form, take their mode bit from `withMode`. Log entry 9. -/
def Config.opc : Sym → BitVec 8
  | .nop => 0x00#8
  | .addI => withMode .imm 0x10#8
  | .addR => withMode .reg 0x10#8
  | .addsI => withMode .imm 0x12#8
  | .addsR => withMode .reg 0x12#8
  | .subI => withMode .imm 0x14#8
  | .subR => withMode .reg 0x14#8
  | .subsI => withMode .imm 0x16#8
  | .subsR => withMode .reg 0x16#8
  | .cmpI => withMode .imm 0x18#8
  | .cmpR => withMode .reg 0x18#8
  | .mul => withMode .reg 0x1A#8
  | .div => withMode .reg 0x1C#8
  | .orI => withMode .imm 0x20#8
  | .orR => withMode .reg 0x20#8
  | .andI => withMode .imm 0x22#8
  | .andR => withMode .reg 0x22#8
  | .xorI => withMode .imm 0x24#8
  | .xorR => withMode .reg 0x24#8
  | .notI => withMode .imm 0x26#8
  | .notR => withMode .reg 0x26#8
  | .lslI => withMode .imm 0x28#8
  | .lslR => withMode .reg 0x28#8
  | .lsrI => withMode .imm 0x2A#8
  | .lsrR => withMode .reg 0x2A#8
  | .asrI => withMode .imm 0x2C#8
  | .asrR => withMode .reg 0x2C#8
  | .ld => 0x40#8
  | .ldh => 0x41#8
  | .ldb => 0x42#8
  | .str => 0x44#8
  | .strh => 0x45#8
  | .strb => 0x46#8
  | .b => 0x60#8
  | .call => 0x61#8
  | .br => 0x62#8
  | .ret => 0x63#8
  | .bcc => 0x64#8
  | .sys => 0xF0#8

/-- The sub-opcode part of `OPC` (R8, R105, D5). Log entry 9. -/
def Config.subOpc : SysSym → BitVec 5
  | .syscall => 0#5
  | .hlt => 1#5
  | .si => 2#5
  | .di => 3#5
  | .eret => 4#5
  | .ldir => 5#5
  | .mvcstr => 6#5
  | .ldcstr => 7#5
  | .resr => 8#5

/-- The condition numbers (R103, D4). Log entry 9. -/
def Config.condNumber : Cond → BitVec 5
  | .eq => 0#5
  | .ne => 1#5
  | .ov => 2#5
  | .nv => 3#5
  | .mi => 4#5
  | .pz => 5#5
  | .cc => 6#5
  | .cs => 7#5
  | .gt => 8#5
  | .ge => 9#5
  | .lt => 10#5
  | .le => 11#5

/-- The row of the top-level decode table for a symbolic opcode. -/
def opcodeRow (y : Sym) : BitVec 8 × Sym := (Config.opc y, y)

/-- NOP and the arithmetic rows of the top-level decode table (R104). -/
def arithRows : List (BitVec 8 × Sym) :=
  [Sym.nop, .addI, .addR, .addsI, .addsR, .subI, .subR, .subsI, .subsR, .cmpI, .cmpR, .mul, .div].map opcodeRow

/-- The logic and shift rows of the top-level decode table (R104). -/
def logicRows : List (BitVec 8 × Sym) :=
  [Sym.orI, .orR, .andI, .andR, .xorI, .xorR, .notI, .notR, .lslI, .lslR, .lsrI, .lsrR, .asrI, .asrR].map opcodeRow

/-- The load, store, branch and system rows of the top-level decode table (R104). -/
def memoryAndControlRows : List (BitVec 8 × Sym) :=
  [Sym.ld, .ldh, .ldb, .str, .strh, .strb, .b, .call, .br, .ret, .bcc, .sys].map opcodeRow

/-- The top-level decode table (R104): the bytes not listed are OP_ERROR. -/
def opcodeTable : List (BitVec 8 × Sym) := arithRows ++ (logicRows ++ memoryAndControlRows)

/-- The row of the sub-opcode table for a system sub-opcode. -/
def subOpcodeRow (y : SysSym) : BitVec 5 × SysSym := (Config.subOpc y, y)

/-- The system sub-opcode table (R105): the values not listed are OP_ERROR. -/
def subOpcodeTable : List (BitVec 5 × SysSym) :=
  [SysSym.syscall, .hlt, .si, .di, .eret, .ldir, .mvcstr, .ldcstr, .resr].map subOpcodeRow

/-- The row of the condition table for a condition. -/
def condRow (c : Cond) : BitVec 5 × Cond := (Config.condNumber c, c)

/-- The condition numbers as a table (R103): the values not listed are OP_ERROR. -/
def condTable : List (BitVec 5 × Cond) :=
  [Cond.eq, .ne, .ov, .nv, .mi, .pz, .cc, .cs, .gt, .ge, .lt, .le].map condRow

/-- `w[31:24]` (R91). -/
def fieldOp8 (w : Word) : BitVec 8 := w.extractLsb' 24 8
/-- `w[23:19]` (R99). -/
def fieldSub (w : Word) : BitVec 5 := w.extractLsb' 19 5
/-- `w[4:0]`: rd, store data, or cond (R93 to R99). -/
def fieldRd (w : Word) : RegIdx := w.extractLsb' 0 5
/-- `w[9:5]`: the I-form source, or the secondary source or index (R93 to R95). -/
def fieldMid (w : Word) : RegIdx := w.extractLsb' 5 5
/-- `w[14:10]`: the primary source of R, M, Bu and S words (R94, R95, R97, R99). -/
def fieldRs1 (w : Word) : RegIdx := w.extractLsb' 10 5
/-- `w[23:10]` (R93). -/
def fieldImm14 (w : Word) : BitVec 14 := w.extractLsb' 10 14
/-- `w[23:15]` (R95). -/
def fieldSimm9 (w : Word) : BitVec 9 := w.extractLsb' 15 9
/-- `w[23:0]` (R96). -/
def fieldOff24 (w : Word) : BitVec 24 := w.extractLsb' 0 24
/-- `w[23:5]` (R98). -/
def fieldOff19 (w : Word) : BitVec 19 := w.extractLsb' 5 19

/-- Operand B of an M-type word (R102): the sentinel 0 means the index register of bits 9:5. -/
def fieldMemOffset (w : Word) : MemOffset :=
  if fieldSimm9 w = 0#9 then .index (fieldMid w) else .imm (fieldSimm9 w)

/-- The Bcc row of a condition (R227). -/
def condInstr (c : Cond) (off19 : BitVec 19) : Instr :=
  match c with
  | .eq => .bEq off19
  | .ne => .bNe off19
  | .ov => .bOv off19
  | .nv => .bNv off19
  | .mi => .bMi off19
  | .pz => .bPz off19
  | .cc => .bCc off19
  | .cs => .bCs off19
  | .gt => .bGt off19
  | .ge => .bGe off19
  | .lt => .bLt off19
  | .le => .bLe off19

/-- The instruction of a system sub-opcode (R99): each takes only the fields it needs. -/
def sysInstr (y : SysSym) (w : Word) : Instr :=
  match y with
  | .syscall => .syscall
  | .hlt => .hlt
  | .si => .si
  | .di => .di
  | .eret => .eret
  | .ldir => .ldir (fieldRd w)
  | .mvcstr => .mvcstr (fieldRs1 w)
  | .ldcstr => .ldcstr (fieldRd w)
  | .resr => .resr (fieldRd w)

/-- The register and immediate fields of each symbolic opcode (R100, R110). -/
def symInstr (y : Sym) (w : Word) : Except DecodeError Instr :=
  match y with
  | .nop => .ok .nop
  | .addI => .ok (.addImm (fieldRd w) (fieldMid w) (fieldImm14 w))
  | .addR => .ok (.addReg (fieldRd w) (fieldRs1 w) (fieldMid w))
  | .addsI => .ok (.addsImm (fieldRd w) (fieldMid w) (fieldImm14 w))
  | .addsR => .ok (.addsReg (fieldRd w) (fieldRs1 w) (fieldMid w))
  | .subI => .ok (.subImm (fieldRd w) (fieldMid w) (fieldImm14 w))
  | .subR => .ok (.subReg (fieldRd w) (fieldRs1 w) (fieldMid w))
  | .subsI => .ok (.subsImm (fieldRd w) (fieldMid w) (fieldImm14 w))
  | .subsR => .ok (.subsReg (fieldRd w) (fieldRs1 w) (fieldMid w))
  | .cmpI => .ok (.cmpImm (fieldMid w) (fieldImm14 w))
  | .cmpR => .ok (.cmpReg (fieldRs1 w) (fieldMid w))
  | .mul => .ok (.mul (fieldRd w) (fieldRs1 w) (fieldMid w))
  | .div => .ok (.div (fieldRd w) (fieldRs1 w) (fieldMid w))
  | .orI => .ok (.orImm (fieldRd w) (fieldMid w) (fieldImm14 w))
  | .orR => .ok (.orReg (fieldRd w) (fieldRs1 w) (fieldMid w))
  | .andI => .ok (.andImm (fieldRd w) (fieldMid w) (fieldImm14 w))
  | .andR => .ok (.andReg (fieldRd w) (fieldRs1 w) (fieldMid w))
  | .xorI => .ok (.xorImm (fieldRd w) (fieldMid w) (fieldImm14 w))
  | .xorR => .ok (.xorReg (fieldRd w) (fieldRs1 w) (fieldMid w))
  | .notI => .ok (.notImm (fieldRd w) (fieldMid w) (fieldImm14 w))
  | .notR => .ok (.notReg (fieldRd w) (fieldRs1 w) (fieldMid w))
  | .lslI => .ok (.lslImm (fieldRd w) (fieldMid w) (fieldImm14 w))
  | .lslR => .ok (.lslReg (fieldRd w) (fieldRs1 w) (fieldMid w))
  | .lsrI => .ok (.lsrImm (fieldRd w) (fieldMid w) (fieldImm14 w))
  | .lsrR => .ok (.lsrReg (fieldRd w) (fieldRs1 w) (fieldMid w))
  | .asrI => .ok (.asrImm (fieldRd w) (fieldMid w) (fieldImm14 w))
  | .asrR => .ok (.asrReg (fieldRd w) (fieldRs1 w) (fieldMid w))
  | .ld => .ok (.ld (fieldRd w) (fieldRs1 w) (fieldMemOffset w))
  | .ldh => .ok (.ldh (fieldRd w) (fieldRs1 w) (fieldMemOffset w))
  | .ldb => .ok (.ldb (fieldRd w) (fieldRs1 w) (fieldMemOffset w))
  | .str => .ok (.str (fieldRd w) (fieldRs1 w) (fieldMemOffset w))
  | .strh => .ok (.strh (fieldRd w) (fieldRs1 w) (fieldMemOffset w))
  | .strb => .ok (.strb (fieldRd w) (fieldRs1 w) (fieldMemOffset w))
  | .b => .ok (.b (fieldOff24 w))
  | .call => .ok (.call (fieldOff24 w))
  | .br => .ok (.br (fieldRs1 w))
  | .ret => .ok (.ret (fieldRs1 w))
  | .bcc =>
    match condTable.lookup (fieldRd w) with
    | some c => .ok (condInstr c (fieldOff19 w))
    | none => .error (.unmappedCondition (fieldRd w))
  | .sys =>
    match subOpcodeTable.lookup (fieldSub w) with
    | some y => .ok (sysInstr y w)
    | none => .error (.unmappedSubOpcode (fieldSub w))

/-- `DecodeWord` (R110), total on every 32-bit word; an error is OP_ERROR, with the case of R107 it falls under. -/
def decodeWord (w : Word) : Except DecodeError Instr :=
  match opcodeTable.lookup (fieldOp8 w) with
  | some y => symInstr y w
  | none => .error (.unmappedOpcode (fieldOp8 w))

/-- The word that four bytes in storage order hold: little-endian, for fetch as for data (R51). -/
def wordOfBytes (b0 b1 b2 b3 : Byte) : Word := b3 ++ b2 ++ b1 ++ b0

/-- The four bytes of a word in storage order (R51). -/
def bytesOfWord (w : Word) : List Byte :=
  [w.extractLsb' 0 8, w.extractLsb' 8 8, w.extractLsb' 16 8, w.extractLsb' 24 8]

/-- The decoder on any list of bytes: one instruction is four bytes (R90), and the rest is handed back. -/
def decodeBytes : List Byte → Except DecodeError (Instr × List Byte)
  | b0 :: b1 :: b2 :: b3 :: rest =>
    match decodeWord (wordOfBytes b0 b1 b2 b3) with
    | .ok i => .ok (i, rest)
    | .error e => .error e
  | _ => .error .truncated

/-- The instruction read from the `nbits`-bit number `w`, every bit above it 0, laid out as four bytes in
storage order. -/
def decodeTableWord (nbits w : Nat) : Option Instr :=
  match decodeBytes (bytesOfWord (BitVec.ofNat 32 (w % 2 ^ nbits))) with
  | .ok (i, _) => some i
  | .error _ => none

/-! ### The encoder, from the same parameters -/

/-- An I-type word (R93). -/
def encodeI (op8 : BitVec 8) (imm14 : BitVec 14) (rs rd : RegIdx) : Word := op8 ++ imm14 ++ rs ++ rd

/-- An R-type word, ignored bits 0 (R94). -/
def encodeR (op8 : BitVec 8) (rs1 rs2 rd : RegIdx) : Word := op8 ++ 0#9 ++ rs1 ++ rs2 ++ rd

/-- An M-type word (R95). Under an immediate the index field, which is ignored, names r30, the register that
signals 'no index' (R102). -/
def encodeM (op8 : BitVec 8) (off : MemOffset) (rb rd : RegIdx) : Word :=
  match off with
  | .imm simm9 => op8 ++ simm9 ++ rb ++ 30#5 ++ rd
  | .index ri => op8 ++ 0#9 ++ rb ++ ri ++ rd

/-- A Bi-type word (R96), and the word of NOP, which has no field below its opcode byte. -/
def encodeBi (op8 : BitVec 8) (off24 : BitVec 24) : Word := op8 ++ off24

/-- A Bu-type word, ignored bits 0 (R97). -/
def encodeBu (op8 : BitVec 8) (rs : RegIdx) : Word := op8 ++ 0#9 ++ rs ++ 0#10

/-- A Bc-type word (R98). -/
def encodeBc (c : Cond) (off19 : BitVec 19) : Word := Config.opc .bcc ++ off19 ++ Config.condNumber c

/-- An S-type word, unused fields 0 (R99). -/
def encodeS (y : SysSym) (rs rd : RegIdx) : Word := Config.opc .sys ++ Config.subOpc y ++ 0#4 ++ rs ++ 0#5 ++ rd

/-- The word of an instruction (R93 to R99, R103 to R105), its ignored bits 0 (R108; r30 in the M index field). -/
def encode : Instr → Word
  | .nop => encodeBi (Config.opc .nop) 0#24
  | .addImm rd rs imm => encodeI (Config.opc .addI) imm rs rd
  | .addReg rd rs1 rs2 => encodeR (Config.opc .addR) rs1 rs2 rd
  | .addsImm rd rs imm => encodeI (Config.opc .addsI) imm rs rd
  | .addsReg rd rs1 rs2 => encodeR (Config.opc .addsR) rs1 rs2 rd
  | .subImm rd rs imm => encodeI (Config.opc .subI) imm rs rd
  | .subReg rd rs1 rs2 => encodeR (Config.opc .subR) rs1 rs2 rd
  | .subsImm rd rs imm => encodeI (Config.opc .subsI) imm rs rd
  | .subsReg rd rs1 rs2 => encodeR (Config.opc .subsR) rs1 rs2 rd
  | .cmpImm rs imm => encodeI (Config.opc .cmpI) imm rs 0#5
  | .cmpReg rs1 rs2 => encodeR (Config.opc .cmpR) rs1 rs2 0#5
  | .orImm rd rs imm => encodeI (Config.opc .orI) imm rs rd
  | .orReg rd rs1 rs2 => encodeR (Config.opc .orR) rs1 rs2 rd
  | .andImm rd rs imm => encodeI (Config.opc .andI) imm rs rd
  | .andReg rd rs1 rs2 => encodeR (Config.opc .andR) rs1 rs2 rd
  | .xorImm rd rs imm => encodeI (Config.opc .xorI) imm rs rd
  | .xorReg rd rs1 rs2 => encodeR (Config.opc .xorR) rs1 rs2 rd
  | .notImm rd rs imm => encodeI (Config.opc .notI) imm rs rd
  | .notReg rd rs1 rs2 => encodeR (Config.opc .notR) rs1 rs2 rd
  | .lslImm rd rs imm => encodeI (Config.opc .lslI) imm rs rd
  | .lslReg rd rs1 rs2 => encodeR (Config.opc .lslR) rs1 rs2 rd
  | .lsrImm rd rs imm => encodeI (Config.opc .lsrI) imm rs rd
  | .lsrReg rd rs1 rs2 => encodeR (Config.opc .lsrR) rs1 rs2 rd
  | .asrImm rd rs imm => encodeI (Config.opc .asrI) imm rs rd
  | .asrReg rd rs1 rs2 => encodeR (Config.opc .asrR) rs1 rs2 rd
  | .mul rd rs1 rs2 => encodeR (Config.opc .mul) rs1 rs2 rd
  | .div rd rs1 rs2 => encodeR (Config.opc .div) rs1 rs2 rd
  | .ld rd rb off => encodeM (Config.opc .ld) off rb rd
  | .ldh rd rb off => encodeM (Config.opc .ldh) off rb rd
  | .ldb rd rb off => encodeM (Config.opc .ldb) off rb rd
  | .str rdata rb off => encodeM (Config.opc .str) off rb rdata
  | .strh rdata rb off => encodeM (Config.opc .strh) off rb rdata
  | .strb rdata rb off => encodeM (Config.opc .strb) off rb rdata
  | .b off => encodeBi (Config.opc .b) off
  | .call off => encodeBi (Config.opc .call) off
  | .br rs => encodeBu (Config.opc .br) rs
  | .ret rs => encodeBu (Config.opc .ret) rs
  | .bEq off => encodeBc .eq off
  | .bNe off => encodeBc .ne off
  | .bOv off => encodeBc .ov off
  | .bNv off => encodeBc .nv off
  | .bMi off => encodeBc .mi off
  | .bPz off => encodeBc .pz off
  | .bCc off => encodeBc .cc off
  | .bCs off => encodeBc .cs off
  | .bGt off => encodeBc .gt off
  | .bGe off => encodeBc .ge off
  | .bLt off => encodeBc .lt off
  | .bLe off => encodeBc .le off
  | .syscall => encodeS .syscall 0#5 0#5
  | .hlt => encodeS .hlt 0#5 0#5
  | .si => encodeS .si 0#5 0#5
  | .di => encodeS .di 0#5 0#5
  | .eret => encodeS .eret 0#5 0#5
  | .ldir rd => encodeS .ldir 0#5 rd
  | .mvcstr rs => encodeS .mvcstr rs 0#5
  | .ldcstr rd => encodeS .ldcstr 0#5 rd
  | .resr rd => encodeS .resr 0#5 rd

end Sys2Proof
end

