-- ==== Sys2Proof/Machine/Pipeline.lean ====
section
/-! DEFINITION. The parts of a cycle around the instruction (R120): its start, the fetch and its error, OP_ERROR, and its end;
what the host does between cycles (R296, R297); and placing an instruction where the next cycle fetches it. -/

namespace Sys2Proof.Machine

/-- The start of a cycle (R121): EXCEPTION goes back to RUNNING before the fetch. -/
def beginCycle (s : State) : State :=
  if s.status = .exception then { s with status := .running } else s

/-- The fetch's read (R121): the word at `pc`, under the live privilege, without the commit check. -/
def fetchWord (s : State) : Except MemoryError Word := checkedRead .fetch s.pc .word s.priv s.mem

/-- The fetch's increment (R121): `pc <- cur + 4`, on a successful and on a failed fetch. -/
def advance (s : State) : State := { s with pc := s.pc + 4#32 }

/-- `FetchError(e)` (R122), with `pc` already advanced. -/
def fetchError (e : MemoryError) (s : State) : State :=
  match s.priv with
  | .user => deliver (.instrAbort e) s
  | .kernel => fatal (.kernelFetch e) s

/-- `InvalidOpcode()` (R124). -/
def invalidOpcode (s : State) : State :=
  match s.priv with
  | .user => deliver .invalidInstr s
  | .kernel => fatal .kernelInvalidOpcode s

/-- Is the core in a status in which cycles run (R120)? -/
def Status.active : Status → Bool
  | .running | .exception => true
  | .halted | .ioWait => false

/-- Does the safety counter halt the core at the end of this cycle (R139)? -/
def safetyExpired (s : State) : Bool := Status.active s.status && decide (Config.safetyLimit ≤ s.cyc + 1)

/-- `EndOfCycle()` (R139): count the cycle, and halt with the halt check when the counter reaches SAFETY_LIMIT. A fatal
fault has stopped the cycle before this step (R290). -/
def endOfCycle (s : State) : State :=
  if s.fatalFlag then s
  else
    { s with
      cyc := s.cyc + 1
      status := if safetyExpired s then .halted else s.status
      outbox := if safetyExpired s then haltVerdict s :: s.outbox else s.outbox
      fatalFlag := safetyExpired s && CoreCall.isFatal (haltVerdict s) }

/-- The end of a cycle whose instruction has run: every outcome but a next state is passed on. -/
def finishCycle (o : Host.Outcome State Fault Refusal) : Host.Outcome State Fault Refusal :=
  match o with
  | .next s => .next (endOfCycle s)
  | .fault f => .fault f
  | .refused r => .refused r

/-- Why the core takes no cycle now, if it takes none (R120, R141, R295). -/
def blocked (s : State) : Option Fault :=
  if s.paused then some .paused
  else
    match s.status with
    | .running | .exception => none
    | .halted => some .halted
    | .ioWait => some .ioWaiting

/-- `resume(entry)` (R296): accepted in HALTED and IO_WAIT, without effect elsewhere. -/
def hostResume (entry : Word) (s : State) : State :=
  match s.status with
  | .halted | .ioWait => { s with pc := entry, status := .running, cyc := 0 }
  | .running | .exception => s

/-- `acknowledge(kind)` (R296): accepted in IO_WAIT, without effect elsewhere; `kind` is not interpreted. -/
def hostAcknowledge (_kind : Nat) (s : State) : State :=
  match s.status with
  | .ioWait => { s with status := .running, cyc := 0 }
  | .halted | .running | .exception => s

/-- May the host write this byte now (R297)? Any byte of the buffer while HALTED, the staged buffer's bytes while
IO_WAIT, none while cycles run. -/
def hostMayWrite (addr : Word) (s : State) : Bool :=
  decide (addr.toNat < Config.memSize) &&
    match s.status with
    | .halted => true
    | .ioWait =>
      match s.ioRequest with
      | some r =>
        decide (r.bufferAddress.toNat ≤ addr.toNat) && decide (addr.toNat < r.bufferAddress.toNat + r.length.toNat)
      | none => false
    | .running | .exception => false

/-- One host action between cycles (R141, R296, R297). A write the spec does not allow is refused (I16). -/
def hostAct (a : HostInput) (s : State) : Host.Outcome State Fault Refusal :=
  match a with
  | .run => .next s
  | .resume entry => .next (hostResume entry s)
  | .acknowledge kind => .next (hostAcknowledge kind s)
  | .pause => .next { s with paused := true }
  | .unpause => .next { s with paused := false }
  | .write addr value =>
    if hostMayWrite addr s then .next { s with mem := Memory.set s.mem addr.toNat value }
    else .refused .hostWriteNotAllowed

/-- The entry an instruction is placed at when `pc` names no place the core may fetch from: the first byte of the
text region of the privilege in force (log entry 17). -/
def defaultEntry : Priv → Word
  | .kernel => BitVec.ofNat 32 (Config.lo .ktext)
  | .user => BitVec.ofNat 32 (Config.lo .utext)

/-- May four bytes be fetched at `pc` (R60, R65)? -/
def fetchable (s : State) : Bool :=
  (fetchStart s.pc.toNat s.priv).isNone && !crossing s.pc.toNat Width.word.bytes

/-- Place the `nbits`-bit instruction `w` where the next cycle fetches, and let the next step be that cycle: the load
of R312, and its `resume` where the core waits (log entry 17). -/
def placeInstruction (s : State) (nbits w : Nat) : State :=
  let pc := if fetchable s then s.pc else defaultEntry s.priv
  { s with
    mem := Memory.writeLE s.mem pc.toNat 4 (w % 2 ^ nbits)
    pc := pc
    status := if Status.active s.status then s.status else .running
    cyc := if Status.active s.status then s.cyc else 0
    fatalFlag := false
    paused := false
    hostInputs := [] }

end Sys2Proof.Machine
end

