-- ==== Sys2Proof/Machine/Step.lean ====
section
/-! DEFINITION. One step: what the host does next if it does something, else one cycle of the core (R120, R143). -/

namespace Sys2Proof.Machine

/-- The cycle (R120): start, fetch, decode, the instruction, end of cycle. -/
def cycle (s : State) : Host.Outcome State Fault Refusal :=
  let s := beginCycle s
  match fetchWord s with
  | .error e => .next (endOfCycle (fetchError e (advance s)))
  | .ok w =>
    match decodeWord w with
    | .error _ => .next (endOfCycle (invalidOpcode (advance s)))
    | .ok i => finishCycle (exec i (advance s))

/-- The core's step: a cycle, or none where the core waits (R120, R295). -/
def coreStep (s : State) : Host.Outcome State Fault Refusal :=
  match blocked s with
  | some f => .fault f
  | none => cycle s

/-- One step of the machine. After a fatal fault nothing has an effect (R290, R296). A pending host input is taken at the
top of the cycle loop; `run`, or no input, lets the core take its step (log entry 15). -/
def step (s : State) : Host.Outcome State Fault Refusal :=
  if s.fatalFlag then .fault .fatalStopped
  else
    match s.hostInputs with
    | [] => coreStep s
    | .run :: rest => coreStep { s with hostInputs := rest }
    | a :: rest => hostAct a { s with hostInputs := rest }

/-- `s` with the `nbits`-bit instruction `w` placed where the very next step fetches it. -/
def State.withFetchWord (s : State) (nbits w : Nat) : State := placeInstruction s nbits w

end Sys2Proof.Machine
end

