-- ==== Sys2Proof/Safety.lean ====
section
/-! DEFINITION. The terms claims are written in: the invariant every step keeps, what a state-frame says, and the parts of the
address space that privilege is about. -/

namespace Sys2Proof.Machine

/-- The invariant of every reachable state. -/
structure State.Inv (s : State) : Prop where
  /-- r30 holds 0 (R23). -/
  linkZero : readReg 30#5 s = 0#32
  /-- Bit 15 of the live CSTR is 0 (R30). -/
  cstrTop : s.cstr.getLsbD 15 = false
  /-- The latch holds a pending value or nothing (R33, R40). -/
  latch : s.cstrLatch.getLsbD 15 = true ∨ s.cstrLatch = 0#16
  /-- Memory is in its canonical form. -/
  memWf : Memory.wf s.mem = true
  /-- Nothing is listed outside the buffer (R50). -/
  memInBuffer : Memory.inBuffer s.mem = true
  /-- A core that runs cycles has not reached the safety limit (R139). -/
  counter : Status.active s.status = true → s.cyc < Config.safetyLimit
  /-- A core that waits for IO has a staged request (R244). -/
  staged : s.status = .ioWait → s.fatalFlag = false → s.ioRequest.isSome = true
  /-- A fatal fault has been reported, and nothing else sets the flag (R290). -/
  reported : s.fatalFlag = s.outbox.any CoreCall.isFatal

/-- A state in which no fatal fault has happened (R35). -/
def State.Safe (s : State) : Prop := s.fatalFlag = false

/-- CSTR after the commit check (R40), said without the operation. -/
def committedCstr (s : State) : Half :=
  if s.cstrLatch.getLsbD 15 then s.cstrLatch &&& 0x7FFF#16 else s.cstr

/-- The latch after the commit check (R40), said without the operation. -/
def committedLatch (s : State) : Half := if s.cstrLatch.getLsbD 15 then 0#16 else s.cstrLatch

/-- The privilege in force after the commit check (R127). -/
def committedPriv (s : State) : Priv := if (committedCstr s).getLsbD 5 then .kernel else .user

/-- Every byte of memory reads as before. -/
def SameMemory (s t : State) : Prop := ∀ a : Nat, Memory.get t.mem a = Memory.get s.mem a

/-- Every byte of memory outside `[a, a + n)` reads as before. -/
def SameMemoryOutside (a n : Nat) (s t : State) : Prop :=
  ∀ b : Nat, (b < a ∨ a + n ≤ b) → Memory.get t.mem b = Memory.get s.mem b

/-- Every register index reads as before. -/
def SameRegs (s t : State) : Prop := ∀ i : RegIdx, readReg i t = readReg i s

/-- The value `v` was written to register `rd` and to no other: index 30 keeps what it held (R22). -/
def RegWritten (rd : RegIdx) (v : Word) (s t : State) : Prop :=
  readReg rd t = (if rd = 30#5 then readReg rd s else v) ∧ ∀ i : RegIdx, i ≠ rd → readReg i t = readReg i s

/-- ESR, the status, the counter, the fatal flag, the host's side and the model's own fields are unchanged. -/
structure Untouched (s t : State) : Prop where
  esr : t.esr = s.esr
  status : t.status = s.status
  cyc : t.cyc = s.cyc
  fatalFlag : t.fatalFlag = s.fatalFlag
  paused : t.paused = s.paused
  ioRequest : t.ioRequest = s.ioRequest
  outbox : t.outbox = s.outbox
  hostInputs : t.hostInputs = s.hostInputs
  ioDraws : t.ioDraws = s.ioDraws

/-- The effect of an instruction that writes one register and no flag (R136): the operand read's commit and the
register, and nothing else. `pc` stays where the fetch left it. -/
def WritesOneRegister (rd : RegIdx) (v : Word) (s t : State) : Prop :=
  RegWritten rd v s t ∧ t.pc = s.pc ∧ t.cstr = committedCstr s ∧ t.cstrLatch = committedLatch s ∧ SameMemory s t ∧
    Untouched s t

/-- The effect of a transfer of control (R220): `pc`, the commit, and nothing else. -/
def MovesPcTo (target : Word) (s t : State) : Prop :=
  t.pc = target ∧ SameRegs s t ∧ t.cstr = committedCstr s ∧ t.cstrLatch = committedLatch s ∧ SameMemory s t ∧
    Untouched s t

/-- A status word whose flags are these and whose every other bit is as in `old` (R160). -/
def FlagsReplaced (c o n z : Bool) (old new : Half) : Prop :=
  new.getLsbD 0 = c ∧ new.getLsbD 1 = o ∧ new.getLsbD 2 = n ∧ new.getLsbD 3 = z ∧
    ∀ k : Nat, 4 ≤ k → new.getLsbD k = old.getLsbD k

/-- The effect of a flag-setting instruction that writes one register (R163, R165). -/
def WritesFlagsAndRegister (rd : RegIdx) (v : Word) (c o n z : Bool) (s t : State) : Prop :=
  RegWritten rd v s t ∧ t.pc = s.pc ∧ FlagsReplaced c o n z (committedCstr s) t.cstr ∧ t.cstrLatch = committedLatch s ∧
    SameMemory s t ∧ Untouched s t

/-- The addresses user code may write (R64): UBSS, UDATA, UHEAP and USTACK. -/
def UserWritable (a : Nat) : Prop :=
  InRegion .ubss a ∨ InRegion .udata a ∨ InRegion .uheap a ∨ InRegion .ustack a

/-- The active process-state pointer as the cell holds it (R38). -/
def psPointer (s : State) : Word := BitVec.ofNat 32 (Memory.readLE s.mem Config.activePsPtr.toNat 4)

/-- The kernel may write the saved IP and the tag of the active record, or there is no active record (R280). -/
def PsWritable (s : State) : Prop :=
  psPointer s = 0#32 ∨
    (writeStart (psPointer s + 10#32).toNat .kernel = none ∧ crossing (psPointer s + 10#32).toNat 4 = false ∧
      writeStart (psPointer s + 566#32).toNat .kernel = none)

/-- The bytes of the active record that delivery writes: four at offset 10 and one at offset 566 (R37, R280). -/
def InPsSlots (s : State) (a : Nat) : Prop :=
  psPointer s ≠ 0#32 ∧
    (((psPointer s + 10#32).toNat ≤ a ∧ a < (psPointer s + 10#32).toNat + 4) ∨ a = (psPointer s + 566#32).toNat)

/-- What delivery of an exception changes beside memory (R280, R282): ESR, PRIV, `pc` and `status`. -/
def EntersHandler (code : Half) (s t : State) : Prop :=
  t.esr = code ∧ t.cstr = s.cstr ||| 0x0020#16 ∧ t.pc = Config.excVector ∧ t.status = .exception ∧
    t.cstrLatch = s.cstrLatch ∧ SameRegs s t ∧ t.cyc = s.cyc ∧ t.fatalFlag = s.fatalFlag ∧ t.paused = s.paused ∧
    t.ioRequest = s.ioRequest ∧ t.outbox = s.outbox ∧ t.hostInputs = s.hostInputs ∧ t.ioDraws = s.ioDraws

/-- A guest exception with this ESR value and tag has been taken (R280, R281): the handler is entered; where there is an
active record, `pc` and the tag are saved in it; no other byte changes. -/
def Delivers (code : Half) (tag : Byte) (s t : State) : Prop :=
  EntersHandler code s t ∧ (∀ a : Nat, ¬InPsSlots s a → Memory.get t.mem a = Memory.get s.mem a) ∧
    (psPointer s ≠ 0#32 →
      (∀ k : Nat, k < 4 → Memory.get t.mem ((psPointer s + 10#32).toNat + k) = s.pc.extractLsb' (8 * k) 8) ∧
        Memory.get t.mem (psPointer s + 566#32).toNat = tag)

/-- The state of a fatal fault with this reason (R290): reported and flagged, every other field as it stood. -/
def fatalState (r : FatalReason) (s : State) : State :=
  { s with outbox := .deliverFatal r :: s.outbox, fatalFlag := true }

/-- The state with the commit check done (R40), said without the operation. -/
def committedState (s : State) : State := { s with cstr := committedCstr s, cstrLatch := committedLatch s }

/-- A core that takes a cycle at the next step, the host doing nothing (R120). -/
def Runs (s : State) : Prop :=
  s.fatalFlag = false ∧ s.paused = false ∧ (s.status = .running ∨ s.status = .exception) ∧ s.hostInputs = []

/-- The state on which the instruction runs: RUNNING, with `pc` advanced past it (R121). -/
def fetchedState (s : State) : State := { s with status := .running, pc := s.pc + 4#32 }

/-- A store of `n` bytes of `v` at `a`, and nothing else but the commit (R209). -/
def StoresBytes (a n : Nat) (v : Word) (s t : State) : Prop :=
  (∀ k : Nat, k < n → Memory.get t.mem (a + k) = v.extractLsb' (8 * k) 8) ∧ SameMemoryOutside a n s t ∧ SameRegs s t ∧
    t.pc = s.pc ∧ t.cstr = committedCstr s ∧ t.cstrLatch = committedLatch s ∧ Untouched s t

end Sys2Proof.Machine
end

