-- ==== Sys2Proof/Certificates/Slice0/Obligations.lean ====
section
/-! DEFINITION. The statements for the provers. Each docstring names the rule of spec/ it formalises; where a rule is the spec's own
decision, it names the log entry that says so. -/

open Sys2Proof Sys2Proof.Machine

/-! ### Encoding -/

/-- Words of 95_test_vectors.md section 2 decode as listed there (the numbers are the spec's choices: log entry 9). -/
def Obligations.SpecDecodeVectors : Prop :=
  decodeWord 0x00FFFFFF#32 = .ok .nop ∧
  decodeWord 0x1B000C41#32 = .ok (.mul 1#5 3#5 2#5) ∧
  decodeWord 0x11FF8C41#32 = .ok (.addReg 1#5 3#5 2#5) ∧
  decodeWord 0x10FFFFFF#32 = .ok (.addImm 31#5 31#5 0x3FFF#14) ∧
  decodeWord 0x40FF8FC1#32 = .ok (.ld 1#5 3#5 (.imm 0x1FF#9)) ∧
  decodeWord 0x40000CE1#32 = .ok (.ld 1#5 3#5 (.index 7#5)) ∧
  decodeWord 0x61FFFFFF#32 = .ok (.call 0xFFFFFF#24) ∧
  decodeWord 0x63007400#32 = .ok (.ret 29#5) ∧
  decodeWord 0x64FFFFE0#32 = .ok (.bEq 0x7FFFF#19) ∧
  decodeWord 0xF0400006#32 = .ok (.resr 6#5) ∧
  decodeWord 0x1A000000#32 = .error (.unmappedOpcode 0x1A#8) ∧
  decodeWord 0x6400000C#32 = .error (.unmappedCondition 12#5) ∧
  decodeWord 0xF0480000#32 = .error (.unmappedSubOpcode 9#5)

/-- Decoding the word of any well-formed instruction gives that instruction, whatever its operands (R93 to R105). -/
def Obligations.DecodeOfEncodeIsTheInstruction : Prop :=
  ∀ i : Instr, i.wf = true → decodeWord (encode i) = .ok i

/-- The bytes of R104's table: the mapped values of `op8`. -/
def Sys2Proof.mappedBytes : List (BitVec 8) :=
  [0x00#8, 0x10#8, 0x11#8, 0x12#8, 0x13#8, 0x14#8, 0x15#8, 0x16#8, 0x17#8, 0x18#8, 0x19#8, 0x1B#8, 0x1D#8,
   0x20#8, 0x21#8, 0x22#8, 0x23#8, 0x24#8, 0x25#8, 0x26#8, 0x27#8, 0x28#8, 0x29#8, 0x2A#8, 0x2B#8, 0x2C#8, 0x2D#8,
   0x40#8, 0x41#8, 0x42#8, 0x44#8, 0x45#8, 0x46#8, 0x60#8, 0x61#8, 0x62#8, 0x63#8, 0x64#8, 0xF0#8]

/-- A word is OP_ERROR exactly in the three cases of R107 (the numbers are the spec's choices: log entry 9). -/
def Obligations.DecodeErrorsAreExactlyTheThreeCases : Prop :=
  ∀ w : Word, (∃ e, decodeWord w = .error e) ↔
    (w.extractLsb' 24 8 ∉ mappedBytes ∨
      (w.extractLsb' 24 8 = 0xF0#8 ∧ 9 ≤ (w.extractLsb' 19 5).toNat) ∨
      (w.extractLsb' 24 8 = 0x64#8 ∧ 12 ≤ (w.extractLsb' 0 5).toNat))

/-- The bits of a word that matter, by its opcode and sub-opcode (R108). -/
def Sys2Proof.careMask (w : Word) : Word :=
  let op8 := w.extractLsb' 24 8
  let sub := w.extractLsb' 19 5
  if op8 = 0x00#8 then 0xFF000000#32
  else if op8 = 0x18#8 then 0xFFFFFFE0#32
  else if op8 = 0x19#8 then 0xFF007FE0#32
  else if op8 ∈ [0x11#8, 0x13#8, 0x15#8, 0x17#8, 0x1B#8, 0x1D#8, 0x21#8, 0x23#8, 0x25#8, 0x27#8, 0x29#8, 0x2B#8, 0x2D#8] then
    0xFF007FFF#32
  else if op8 ∈ [0x40#8, 0x41#8, 0x42#8, 0x44#8, 0x45#8, 0x46#8] ∧ w.extractLsb' 15 9 ≠ 0#9 then 0xFFFFFC1F#32
  else if op8 = 0x62#8 ∨ op8 = 0x63#8 then 0xFF007C00#32
  else if op8 = 0xF0#8 then
    if sub ∈ [5#5, 7#5, 8#5] then 0xFFF8001F#32
    else if sub = 6#5 then 0xFFF87C00#32
    else 0xFFF80000#32
  else 0xFFFFFFFF#32

/-- Changing ignored bits does not change what a word decodes to, or whether it does but for the numbers named in the
error (R108; don't-care bits are the spec's choice D7: log entry 9). -/
def Obligations.IgnoredBitsDoNotChangeTheInstruction : Prop :=
  ∀ (w v : Word) (i : Instr), decodeWord w = .ok i →
    decodeWord ((w &&& careMask w) ||| (v &&& ~~~careMask w)) = .ok i

/-! ### The register file and CSTR -/

/-- R22: the register write commits, then drops index 30, writes SP at index 31, and r_i at any other. -/
def Obligations.RegisterWriteFollowsItsIndex : Prop :=
  ∀ (i : RegIdx) (v : Word) (s : State),
    writeReg i v s =
      (if i = 30#5 then regFileAccess s
       else if i = 31#5 then { regFileAccess s with sp := v }
       else { regFileAccess s with gpr := (regFileAccess s).gpr.setIfInBounds i.toNat v })

/-- NOP changes nothing but `pc`, which the fetch has advanced: it completes in every state, and only the commit of the
operand read happens (R151; the NOP encoding and effect are the spec's choice D8: log entry 9). -/
def Obligations.NopOnlyCommits : Prop :=
  ∀ s : State, exec .nop s =
    .next (if s.cstrLatch.getLsbD 15 then { s with cstr := s.cstrLatch &&& 0x7FFF#16, cstrLatch := 0#16 } else s)

/-! ### Arithmetic, logic and shifts -/

/-- ADD and SUB complete in every state: the wrapped sum or difference goes to rd, index 30 drops it, no flag changes, and
memory and everything else stay (R162, R164). -/
def Obligations.AddAndSubWriteTheWrappedResult : Prop :=
  ∀ (rd rs rs2 : RegIdx) (imm : BitVec 14) (s : State),
    (∃ t, exec (.addImm rd rs imm) s = .next t ∧ WritesOneRegister rd (readReg rs s + imm.setWidth 32) s t) ∧
    (∃ t, exec (.addReg rd rs rs2) s = .next t ∧ WritesOneRegister rd (readReg rs s + readReg rs2 s) s t) ∧
    (∃ t, exec (.subImm rd rs imm) s = .next t ∧ WritesOneRegister rd (readReg rs s - imm.setWidth 32) s t) ∧
    (∃ t, exec (.subReg rd rs rs2) s = .next t ∧ WritesOneRegister rd (readReg rs s - readReg rs2 s) s t)

/-- ADDS completes in every state and writes rd and the four flags: C is the carry out of bit 31, O is the parameter
OVF_ADD (log entry 12), N is bit 31 and Z says that the sum is 0 (R160, R163, R180). -/
def Obligations.AddsWritesSumAndFlags : Prop :=
  ∀ (rd rs rs2 : RegIdx) (imm : BitVec 14) (s : State),
    (∃ t, exec (.addsImm rd rs imm) s = .next t ∧
      WritesFlagsAndRegister rd (readReg rs s + imm.setWidth 32)
        (decide (2 ^ 32 ≤ (readReg rs s).toNat + imm.toNat))
        (ovfAdd (readReg rs s) (imm.setWidth 32) (readReg rs s + imm.setWidth 32))
        (readReg rs s + imm.setWidth 32).msb (readReg rs s + imm.setWidth 32 == 0#32) s t) ∧
    (∃ t, exec (.addsReg rd rs rs2) s = .next t ∧
      WritesFlagsAndRegister rd (readReg rs s + readReg rs2 s)
        (decide (2 ^ 32 ≤ (readReg rs s).toNat + (readReg rs2 s).toNat))
        (ovfAdd (readReg rs s) (readReg rs2 s) (readReg rs s + readReg rs2 s))
        (readReg rs s + readReg rs2 s).msb (readReg rs s + readReg rs2 s == 0#32) s t)

/-- SUBS completes in every state and writes rd and the four flags: C says A is not below B, O is the parameter OVF_SUB
(log entry 12), N is bit 31, and Z says A equals B (R160, R165, R180). -/
def Obligations.SubsWritesDifferenceAndFlags : Prop :=
  ∀ (rd rs rs2 : RegIdx) (imm : BitVec 14) (s : State),
    (∃ t, exec (.subsImm rd rs imm) s = .next t ∧
      WritesFlagsAndRegister rd (readReg rs s - imm.setWidth 32)
        (decide (imm.toNat ≤ (readReg rs s).toNat))
        (ovfSub (readReg rs s) (imm.setWidth 32) (readReg rs s - imm.setWidth 32))
        (readReg rs s - imm.setWidth 32).msb (readReg rs s == imm.setWidth 32) s t) ∧
    (∃ t, exec (.subsReg rd rs rs2) s = .next t ∧
      WritesFlagsAndRegister rd (readReg rs s - readReg rs2 s)
        (decide ((readReg rs2 s).toNat ≤ (readReg rs s).toNat))
        (ovfSub (readReg rs s) (readReg rs2 s) (readReg rs s - readReg rs2 s))
        (readReg rs s - readReg rs2 s).msb (readReg rs s == readReg rs2 s) s t)

/-- CMP completes in every state, writes the flags of SUBS and no register (R160, R166; no write-back is the spec's choice
D40: log entry 24). -/
def Obligations.CmpWritesFlagsOnly : Prop :=
  ∀ (rs rs2 : RegIdx) (imm : BitVec 14) (s : State),
    (∃ t, exec (.cmpImm rs imm) s = .next t ∧ SameRegs s t ∧ t.pc = s.pc ∧
      FlagsReplaced (decide (imm.toNat ≤ (readReg rs s).toNat))
        (ovfSub (readReg rs s) (imm.setWidth 32) (readReg rs s - imm.setWidth 32))
        (readReg rs s - imm.setWidth 32).msb (readReg rs s == imm.setWidth 32) (committedCstr s) t.cstr ∧
      t.cstrLatch = committedLatch s ∧ SameMemory s t ∧ Untouched s t) ∧
    (∃ t, exec (.cmpReg rs rs2) s = .next t ∧ SameRegs s t ∧ t.pc = s.pc ∧
      FlagsReplaced (decide ((readReg rs2 s).toNat ≤ (readReg rs s).toNat))
        (ovfSub (readReg rs s) (readReg rs2 s) (readReg rs s - readReg rs2 s))
        (readReg rs s - readReg rs2 s).msb (readReg rs s == readReg rs2 s) (committedCstr s) t.cstr ∧
      t.cstrLatch = committedLatch s ∧ SameMemory s t ∧ Untouched s t)

/-- Under the default OVF functions the overflow flag says that the exact signed result does not fit (R180; the defaults
are the spec's choice D39: log entry 12). -/
def Obligations.DefaultOverflowIsSignedOverflow : Prop :=
  ∀ a b : Word,
    ovfAdd a b (a + b) = decide (a.toInt + b.toInt < -2 ^ 31 ∨ 2 ^ 31 ≤ a.toInt + b.toInt) ∧
    ovfSub a b (a - b) = decide (a.toInt - b.toInt < -2 ^ 31 ∨ 2 ^ 31 ≤ a.toInt - b.toInt)

/-- After `cmp a, b`, under the default OVF functions, GE, LT, GT and LE are the signed comparisons, and CS and CC the
unsigned ones (R180, R229; the defaults are the spec's choice D39: log entry 12). -/
def Obligations.ConditionsAfterCompareAreComparisons : Prop :=
  ∀ a b : Word,
    condHolds .ge (flagsSub a b (a - b)) = decide (b.toInt ≤ a.toInt) ∧
    condHolds .lt (flagsSub a b (a - b)) = decide (a.toInt < b.toInt) ∧
    condHolds .gt (flagsSub a b (a - b)) = decide (b.toInt < a.toInt) ∧
    condHolds .le (flagsSub a b (a - b)) = decide (a.toInt ≤ b.toInt) ∧
    condHolds .cs (flagsSub a b (a - b)) = decide (b.toNat ≤ a.toNat) ∧
    condHolds .cc (flagsSub a b (a - b)) = decide (a.toNat < b.toNat)

/-- OR, AND and XOR complete in every state and write the bitwise result to rd, and no flag (R170, R171, R172). -/
def Obligations.LogicWritesTheBitwiseResult : Prop :=
  ∀ (rd rs rs2 : RegIdx) (imm : BitVec 14) (s : State),
    (∃ t, exec (.orImm rd rs imm) s = .next t ∧ WritesOneRegister rd (readReg rs s ||| imm.setWidth 32) s t) ∧
    (∃ t, exec (.orReg rd rs rs2) s = .next t ∧ WritesOneRegister rd (readReg rs s ||| readReg rs2 s) s t) ∧
    (∃ t, exec (.andImm rd rs imm) s = .next t ∧ WritesOneRegister rd (readReg rs s &&& imm.setWidth 32) s t) ∧
    (∃ t, exec (.andReg rd rs rs2) s = .next t ∧ WritesOneRegister rd (readReg rs s &&& readReg rs2 s) s t) ∧
    (∃ t, exec (.xorImm rd rs imm) s = .next t ∧ WritesOneRegister rd (readReg rs s ^^^ imm.setWidth 32) s t) ∧
    (∃ t, exec (.xorReg rd rs rs2) s = .next t ∧ WritesOneRegister rd (readReg rs s ^^^ readReg rs2 s) s t)

/-- NOT completes in every state and writes the complement of its primary source, whatever operand B is (R173; the operand
is the spec's choice D38: log entry 24). -/
def Obligations.NotComplementsThePrimarySource : Prop :=
  ∀ (rd rs rs2 : RegIdx) (imm : BitVec 14) (s : State),
    (∃ t, exec (.notImm rd rs imm) s = .next t ∧ WritesOneRegister rd (~~~(readReg rs s)) s t) ∧
    (∃ t, exec (.notReg rd rs rs2) s = .next t ∧ WritesOneRegister rd (~~~(readReg rs s)) s t)

/-- LSL, LSR and ASR complete in every state and shift by operand B modulo 32 (R152, R175, R176, R177; the bound is the
spec's choice D37: log entry 24). -/
def Obligations.ShiftsUseTheAmountModulo32 : Prop :=
  ∀ (rd rs rs2 : RegIdx) (imm : BitVec 14) (s : State),
    (∃ t, exec (.lslImm rd rs imm) s = .next t ∧ WritesOneRegister rd (readReg rs s <<< (imm.toNat % 32)) s t) ∧
    (∃ t, exec (.lslReg rd rs rs2) s = .next t ∧
      WritesOneRegister rd (readReg rs s <<< ((readReg rs2 s).toNat % 32)) s t) ∧
    (∃ t, exec (.lsrImm rd rs imm) s = .next t ∧ WritesOneRegister rd (readReg rs s >>> (imm.toNat % 32)) s t) ∧
    (∃ t, exec (.lsrReg rd rs rs2) s = .next t ∧
      WritesOneRegister rd (readReg rs s >>> ((readReg rs2 s).toNat % 32)) s t) ∧
    (∃ t, exec (.asrImm rd rs imm) s = .next t ∧
      WritesOneRegister rd ((readReg rs s).sshiftRight (imm.toNat % 32)) s t) ∧
    (∃ t, exec (.asrReg rd rs rs2) s = .next t ∧
      WritesOneRegister rd ((readReg rs s).sshiftRight ((readReg rs2 s).toNat % 32)) s t)

/-- MUL completes in every state with the low 32 bits of the product; DIV completes for a nonzero divisor with the
unsigned quotient (R167, R168; signedness and width are the spec's choices D35, D36: log entry 24). -/
def Obligations.MulAndDivWriteTheUnsignedResult : Prop :=
  ∀ (rd rs1 rs2 : RegIdx) (s : State),
    (∃ t, exec (.mul rd rs1 rs2) s = .next t ∧
      WritesOneRegister rd (BitVec.ofNat 32 ((readReg rs1 s).toNat * (readReg rs2 s).toNat)) s t) ∧
    (readReg rs2 s ≠ 0#32 → ∃ t, exec (.div rd rs1 rs2) s = .next t ∧
      WritesOneRegister rd (BitVec.ofNat 32 ((readReg rs1 s).toNat / (readReg rs2 s).toNat)) s t)

/-- R153: a zero divisor is the fatal fault DIV_ZERO in either privilege; the cycle stops at Execute with no register
written (that it is fatal is the spec's choice D35: log entry 24). -/
def Obligations.DivisionByZeroIsFatal : Prop :=
  ∀ (rd rs1 rs2 : RegIdx) (s : State), readReg rs2 s = 0#32 →
    exec (.div rd rs1 rs2) s = .next (fatalState .divZero (committedState s))

/-! ### Memory and protection -/

/-- R60 and R61: where the kernel may fetch and read from, where the user may fetch from, and the error elsewhere (the
bounds are the default map's: log entry 3). -/
def Obligations.KernelReadAndFetchSets : Prop :=
  ∀ a : Nat,
    readStart a .kernel =
      (if 0x000FF000 ≤ a ∧ a ≤ 0x004FFFFF then none else some .kSectionRead) ∧
    fetchStart a .kernel =
      (if (0x000FF000 ≤ a ∧ a ≤ 0x002FFFFF) ∨ (0x00400000 ≤ a ∧ a ≤ 0x004FFFFF) then none else some .kFetchSectionRead) ∧
    fetchStart a .user =
      (if (0x00700000 ≤ a ∧ a ≤ 0x007FFFFF) ∨ (0x00400000 ≤ a ∧ a ≤ 0x004FFFFF) then none else some .uFetchSectionRead)

/-- R62 and R64: the user may read exactly SYSLIB, UBSS to UHEAP, and USTACK, and write exactly UBSS, UDATA, UHEAP and
USTACK, with its own error for a write to UTEXT and to UCONST (the reading of the source's read sentence is the spec's
own, C8 and D20, and the bounds are the default map's: log entries 3, 31). -/
def Obligations.UserReadAndWriteSets : Prop :=
  ∀ a : Nat,
    readStart a .user =
      (if InRegion .syslib a ∨ (Config.lo .ubss ≤ a ∧ a ≤ Config.hi .uheap) ∨ InRegion .ustack a then none
       else some .uSectionRead) ∧
    (UserWritable a → writeStart a .user = none) ∧
    (InRegion .utext a → writeStart a .user = some .uTextWrite) ∧
    (InRegion .uconst a → writeStart a .user = some .uConstWrite) ∧
    (¬UserWritable a → ¬InRegion .utext a → ¬InRegion .uconst a → writeStart a .user = some .uSectionWrite)

/-- R63: the kernel may write from KDATA_LO up to MEM_SIZE - 1, the unassigned gap included; KTEXT has its own error (the
upper bound is the spec's choice D23: log entry 31). -/
def Obligations.KernelWriteSet : Prop :=
  ∀ a : Nat,
    (Config.lo .kdata ≤ a → a < Config.memSize → writeStart a .kernel = none) ∧
    (InRegion .ktext a → writeStart a .kernel = some .kTextWrite) ∧
    (a < Config.lo .ktext ∨ Config.memSize ≤ a → writeStart a .kernel = some .kSectionWrite)

/-- An access that starts in a region and crosses no edge stays in that region (R58, R59, R65; the edge set is the spec's
choice D19: log entry 31). -/
def Obligations.AccessWithoutCrossingStaysInItsRegion : Prop :=
  ∀ (r : Region) (a n k : Nat), InRegion r a → crossing a n = false → k < n → InRegion r (a + k)

/-- What was written is read back, modulo 2^(8n), and in every writable and readable region there is an address where both
succeed (R71, derived there from R51, R66 and R67). -/
def Obligations.WriteThenReadReturnsTheValue : Prop :=
  (∀ (a : Word) (w : Width) (v x : Word) (p : Priv) (m m' : Memory), Memory.wf m = true →
    checkedWrite a w v p m = .ok m' → checkedRead .data a w p m' = .ok x →
    x.toNat = v.toNat % 2 ^ (8 * w.bytes)) ∧
  (∀ r ∈ [Region.kdata, Region.kheap, Region.kstack], ∃ a : Nat, InRegion r a ∧ crossing a 4 = false ∧
    writeStart a .kernel = none ∧ readStart a .kernel = none) ∧
  (∀ r ∈ [Region.ubss, Region.udata, Region.uheap, Region.ustack], ∃ a : Nat, InRegion r a ∧ crossing a 4 = false ∧
    writeStart a .user = none ∧ readStart a .user = none)

/-- R67, last sentence, and R65: a write that starts where it may and crosses an edge fails, with the variant of the
privilege's heap, stack or neither, and gives no memory. -/
def Obligations.CrossingWriteFailsByItsRegion : Prop :=
  ∀ (a : Word) (w : Width) (v : Word) (p : Priv) (m : Memory),
    writeStart a.toNat p = none → crossing a.toNat w.bytes = true →
      (InRegion .kheap a.toNat → p = .kernel → checkedWrite a w v p m = .error .kHeapOverflow) ∧
      (InRegion .kstack a.toNat → p = .kernel → checkedWrite a w v p m = .error .kStackOverflow) ∧
      (¬InRegion .kheap a.toNat → ¬InRegion .kstack a.toNat → p = .kernel → checkedWrite a w v p m = .error .kOverflow) ∧
      (InRegion .uheap a.toNat → p = .user → checkedWrite a w v p m = .error .uHeapOverflow) ∧
      (InRegion .ustack a.toNat → p = .user → checkedWrite a w v p m = .error .uStackOverflow) ∧
      (¬InRegion .uheap a.toNat → ¬InRegion .ustack a.toNat → p = .user → checkedWrite a w v p m = .error .uOverflow)

/-- The effective address: base plus the sign-extended byte offset, or plus the index register, modulo 2^32 (R202). -/
def Obligations.EffectiveAddressIsTheWrappedSum : Prop :=
  ∀ (rb ri : RegIdx) (simm9 : BitVec 9) (s : State),
    (effAddr rb (.imm simm9) s).toNat = (((readReg rb s).toNat : Int) + simm9.toInt) % 2 ^ 32 ∧
    (effAddr rb (.index ri) s).toNat = ((readReg rb s).toNat + (readReg ri s).toNat) % 2 ^ 32

/-- LD, LDH and LDB complete wherever the read is admitted: the little-endian bytes, zero-extended, go to rd, and nothing
else changes (R203, R205, R206, R207; zero extension and byte order are the spec's choices D15, D17: log entries 23, 32). -/
def Obligations.LoadsWriteTheZeroExtendedBytes : Prop :=
  ∀ (rd rb : RegIdx) (off : MemOffset) (s : State) (a : Nat), (effAddr rb off (regFileAccess s)).toNat = a →
    readStart a (committedPriv s) = none →
    (crossing a 4 = false → ∃ t, exec (.ld rd rb off) s = .next t ∧
      WritesOneRegister rd (Memory.get s.mem (a + 3) ++ Memory.get s.mem (a + 2) ++ Memory.get s.mem (a + 1) ++
        Memory.get s.mem a) s t) ∧
    (crossing a 2 = false → ∃ t, exec (.ldh rd rb off) s = .next t ∧
      WritesOneRegister rd ((Memory.get s.mem (a + 1) ++ Memory.get s.mem a).setWidth 32) s t) ∧
    (∃ t, exec (.ldb rd rb off) s = .next t ∧ WritesOneRegister rd ((Memory.get s.mem a).setWidth 32) s t)

/-- STR, STRH and STRB complete wherever the write is admitted: the low bytes of the data register go to the effective
address, little-endian, and no other byte, register or flag changes (R204, R209, R210, R211). -/
def Obligations.StoresWriteExactlyTheirBytes : Prop :=
  ∀ (rdata rb : RegIdx) (off : MemOffset) (s : State) (a : Nat), Memory.wf s.mem = true →
    (effAddr rb off (regFileAccess s)).toNat = a → writeStart a (committedPriv s) = none →
    (crossing a 4 = false → ∃ t, exec (.str rdata rb off) s = .next t ∧ StoresBytes a 4 (readReg rdata s) s t) ∧
    (crossing a 2 = false → ∃ t, exec (.strh rdata rb off) s = .next t ∧ StoresBytes a 2 (readReg rdata s) s t) ∧
    (∃ t, exec (.strb rdata rb off) s = .next t ∧ StoresBytes a 1 (readReg rdata s) s t)

/-- A load or store whose access fails is fatal in kernel mode, by the privilege after the commit, with no register and no
byte written (R212, R69). -/
def Obligations.KernelAccessErrorsAreFatal : Prop :=
  ∀ (r rb : RegIdx) (off : MemOffset) (s : State) (e : MemoryError), committedPriv s = .kernel →
    (checkedRead .data (effAddr rb off (regFileAccess s)) .word .kernel s.mem = .error e →
      exec (.ld r rb off) s = .next (fatalState (.kernelData e) (committedState s))) ∧
    (checkedRead .data (effAddr rb off (regFileAccess s)) .half .kernel s.mem = .error e →
      exec (.ldh r rb off) s = .next (fatalState (.kernelData e) (committedState s))) ∧
    (checkedRead .data (effAddr rb off (regFileAccess s)) .byte .kernel s.mem = .error e →
      exec (.ldb r rb off) s = .next (fatalState (.kernelData e) (committedState s))) ∧
    (checkedWrite (effAddr rb off (regFileAccess s)) .word (readReg r s) .kernel s.mem = .error e →
      exec (.str r rb off) s = .next (fatalState (.kernelData e) (committedState s))) ∧
    (checkedWrite (effAddr rb off (regFileAccess s)) .half (readReg r s) .kernel s.mem = .error e →
      exec (.strh r rb off) s = .next (fatalState (.kernelData e) (committedState s))) ∧
    (checkedWrite (effAddr rb off (regFileAccess s)) .byte (readReg r s) .kernel s.mem = .error e →
      exec (.strb r rb off) s = .next (fatalState (.kernelData e) (committedState s)))

/-- A load or store whose access fails in user mode takes the data abort: ESR is 0x0400 with the error's code, the tag is
4, and no register is written (R212, R276, R280; the codes are the spec's choice D25: log entry 27). -/
def Obligations.UserAccessErrorsAreDataAborts : Prop :=
  ∀ (r rb : RegIdx) (off : MemOffset) (s : State) (e : MemoryError), committedPriv s = .user → Memory.wf s.mem = true →
    PsWritable s →
    (checkedRead .data (effAddr rb off (regFileAccess s)) .word .user s.mem = .error e →
      ∃ t, exec (.ld r rb off) s = .next t ∧ Delivers (0x0400#16 ||| e.code.setWidth 16) 4#8 (committedState s) t) ∧
    (checkedRead .data (effAddr rb off (regFileAccess s)) .half .user s.mem = .error e →
      ∃ t, exec (.ldh r rb off) s = .next t ∧ Delivers (0x0400#16 ||| e.code.setWidth 16) 4#8 (committedState s) t) ∧
    (checkedRead .data (effAddr rb off (regFileAccess s)) .byte .user s.mem = .error e →
      ∃ t, exec (.ldb r rb off) s = .next t ∧ Delivers (0x0400#16 ||| e.code.setWidth 16) 4#8 (committedState s) t) ∧
    (checkedWrite (effAddr rb off (regFileAccess s)) .word (readReg r s) .user s.mem = .error e →
      ∃ t, exec (.str r rb off) s = .next t ∧ Delivers (0x0400#16 ||| e.code.setWidth 16) 4#8 (committedState s) t) ∧
    (checkedWrite (effAddr rb off (regFileAccess s)) .half (readReg r s) .user s.mem = .error e →
      ∃ t, exec (.strh r rb off) s = .next t ∧ Delivers (0x0400#16 ||| e.code.setWidth 16) 4#8 (committedState s) t) ∧
    (checkedWrite (effAddr rb off (regFileAccess s)) .byte (readReg r s) .user s.mem = .error e →
      ∃ t, exec (.strb r rb off) s = .next t ∧ Delivers (0x0400#16 ||| e.code.setWidth 16) 4#8 (committedState s) t)

/-! ### Control transfer -/

/-- B completes in every state: `pc` is `cur` plus four times the signed offset, and nothing else changes (R222). -/
def Obligations.BranchSetsPcFromCur : Prop :=
  ∀ (off : BitVec 24) (s : State), ∃ t, exec (.b off) s = .next t ∧
    MovesPcTo (s.pc - 4#32 + off.signExtend 32 * 4#32) s t

/-- CALL completes in every state: the target as B's, and register 29 holds `cur + 4`, the address after the CALL (R223;
LINK_REG = 29 is the spec's choice D9: log entry 6). -/
def Obligations.CallLinksAndBranches : Prop :=
  ∀ (off : BitVec 24) (s : State), ∃ t, exec (.call off) s = .next t ∧
    t.pc = s.pc - 4#32 + off.signExtend 32 * 4#32 ∧ RegWritten 29#5 s.pc s t ∧
    t.cstr = committedCstr s ∧ t.cstrLatch = committedLatch s ∧ SameMemory s t ∧ Untouched s t

/-- BR and RET complete in every state and set `pc` to the whole register, SP for index 31 (R224, R225; that RET is BR is
the spec's choice D43: log entry 36). -/
def Obligations.RegisterBranchesSetPc : Prop :=
  ∀ (rs : RegIdx) (s : State),
    (∃ t, exec (.br rs) s = .next t ∧ MovesPcTo (readReg rs s) s t) ∧
    (∃ t, exec (.ret rs) s = .next t ∧ MovesPcTo (readReg rs s) s t)

/-- The `pc` after a conditional branch: `cur` plus four times the signed offset where it is taken (R227). -/
def Sys2Proof.Machine.bccTarget (take : Bool) (off : BitVec 19) (s : State) : Word :=
  if take then s.pc - 4#32 + off.signExtend 32 * 4#32 else s.pc

/-- R228: the eight conditions on one flag branch as the table says, on the flags of the live CSTR before the commit, and
complete in every state (the bit positions of the flags are the spec's choice D12: log entry 7). -/
def Obligations.OneFlagBranchesTestTheLiveFlag : Prop :=
  ∀ (off : BitVec 19) (s : State),
    (∃ t, exec (.bEq off) s = .next t ∧ MovesPcTo (bccTarget (s.cstr.getLsbD 3) off s) s t) ∧
    (∃ t, exec (.bNe off) s = .next t ∧ MovesPcTo (bccTarget (!s.cstr.getLsbD 3) off s) s t) ∧
    (∃ t, exec (.bOv off) s = .next t ∧ MovesPcTo (bccTarget (s.cstr.getLsbD 1) off s) s t) ∧
    (∃ t, exec (.bNv off) s = .next t ∧ MovesPcTo (bccTarget (!s.cstr.getLsbD 1) off s) s t) ∧
    (∃ t, exec (.bMi off) s = .next t ∧ MovesPcTo (bccTarget (s.cstr.getLsbD 2) off s) s t) ∧
    (∃ t, exec (.bPz off) s = .next t ∧ MovesPcTo (bccTarget (!s.cstr.getLsbD 2) off s) s t) ∧
    (∃ t, exec (.bCc off) s = .next t ∧ MovesPcTo (bccTarget (!s.cstr.getLsbD 0) off s) s t) ∧
    (∃ t, exec (.bCs off) s = .next t ∧ MovesPcTo (bccTarget (s.cstr.getLsbD 0) off s) s t)

/-- R228: GT, GE, LT and LE branch by N, O and Z of the live CSTR before the commit, and complete in every state (the bit
positions of the flags are the spec's choice D12: log entry 7). -/
def Obligations.SignedBranchesTestNAndO : Prop :=
  ∀ (off : BitVec 19) (s : State),
    (∃ t, exec (.bGt off) s = .next t ∧
      MovesPcTo (bccTarget ((s.cstr.getLsbD 2 == s.cstr.getLsbD 1) && !s.cstr.getLsbD 3) off s) s t) ∧
    (∃ t, exec (.bGe off) s = .next t ∧ MovesPcTo (bccTarget (s.cstr.getLsbD 2 == s.cstr.getLsbD 1) off s) s t) ∧
    (∃ t, exec (.bLt off) s = .next t ∧ MovesPcTo (bccTarget (s.cstr.getLsbD 2 != s.cstr.getLsbD 1) off s) s t) ∧
    (∃ t, exec (.bLe off) s = .next t ∧
      MovesPcTo (bccTarget ((s.cstr.getLsbD 2 != s.cstr.getLsbD 1) || s.cstr.getLsbD 3) off s) s t)

/-! ### System instructions -/

/-- SYSCALL completes by taking its exception in either privilege, wherever the active record can be written: ESR is the
low half of r0, the tag is 0, and the handler is entered in kernel mode (R241, R280, R281; log entries 34, 35). -/
def Obligations.SyscallTakesItsException : Prop :=
  ∀ s : State, Memory.wf s.mem = true → PsWritable s →
    ∃ t, exec .syscall s = .next t ∧ Delivers ((readReg 0#5 s).setWidth 16) 0#8 (committedState s) t

/-- Every privileged sub-opcode in user mode takes the privilege violation, ESR 0x0300 and tag 3, and has no other effect,
not even the commit (R125, R240, R276). -/
def Obligations.UserModePrivilegedInstructionsAreViolations : Prop :=
  ∀ (r : RegIdx) (s : State), s.priv = .user → Memory.wf s.mem = true → PsWritable s →
    ∀ i ∈ [Instr.hlt, .si, .di, .eret, .ldir r, .mvcstr r, .ldcstr r, .resr r],
      ∃ t, exec i s = .next t ∧ Delivers 0x0300#16 3#8 s t

/-- A plain HLT in kernel mode completes: HALTED, with the report of the halt check, clean with no active record or with
the SYSCALL tag, a coredump with another tag, fatal where the tag cannot be read, and nothing else changed (R243, R294; log entry 39). -/
def Obligations.PlainHaltReportsTheHaltCheck : Prop :=
  ∀ s : State, s.priv = .kernel → (committedCstr s).getLsbD 7 = false →
    (psPointer s = 0#32 → exec .hlt s =
      .next { committedState s with status := .halted, outbox := .haltedClean :: s.outbox }) ∧
    (psPointer s ≠ 0#32 → readStart (psPointer s + 566#32).toNat .kernel = none →
      exec .hlt s = .next { committedState s with
        status := .halted
        outbox := (if Memory.get s.mem (psPointer s + 566#32).toNat = 0#8 then .haltedClean else .deliverCoredump)
          :: s.outbox }) ∧
    (psPointer s ≠ 0#32 → readStart (psPointer s + 566#32).toNat .kernel ≠ none →
      exec .hlt s = .next (fatalState .psAccess { committedState s with status := .halted }))

/-- An IO-flavoured HLT in kernel mode completes, for either draw of the staging: IO_WAIT with the descriptor r0, r1, r2
requested, or the fatal fault INTERNAL; no general register changes (R243, R244, R291; log entries 8, 18, 33). -/
def Obligations.IoHaltStagesTheDescriptor : Prop :=
  ∀ s : State, s.priv = .kernel → (committedCstr s).getLsbD 7 = true →
    exec .hlt s = .next
      (if Config.stagingSucceeds s.ioDraws then
        { committedState s with
          status := .ioWait
          ioDraws := s.ioDraws + 1
          ioRequest := some ⟨readReg 0#5 s, readReg 1#5 s, readReg 2#5 s⟩
          outbox := .requestIo ⟨readReg 0#5 s, readReg 1#5 s, readReg 2#5 s⟩ :: s.outbox }
      else fatalState .internal { committedState s with status := .ioWait, ioDraws := s.ioDraws + 1 })

/-- SI and DI in kernel mode complete and write IE of the committed CSTR directly, and nothing else (R245, R246; their
meaning is read from the mnemonics, D61: log entry 25). -/
def Obligations.SiAndDiWriteInterruptEnable : Prop :=
  ∀ s : State, s.priv = .kernel →
    exec .si s = .next { committedState s with cstr := committedCstr s ||| 0x0010#16 } ∧
    exec .di s = .next { committedState s with cstr := committedCstr s &&& 0xFFEF#16 }

/-- ERET in kernel mode, with an active record that can be read, completes: `pc` is the saved address, PRIV is 0 at once,
and nothing else is restored (R248; log entry 28). -/
def Obligations.EretRestoresPcAndUserMode : Prop :=
  ∀ s : State, s.priv = .kernel → psPointer s ≠ 0#32 → readStart (psPointer s + 10#32).toNat .kernel = none →
    crossing (psPointer s + 10#32).toNat 4 = false →
    exec .eret s = .next { committedState s with
      pc := BitVec.ofNat 32 (Memory.readLE s.mem (psPointer s + 10#32).toNat 4)
      cstr := committedCstr s &&& 0xFFDF#16 }

/-- ERET in kernel mode with no active record is the fatal fault ERET_NO_PROCESS, and with a record that cannot be read
PS_ACCESS (R248, R290). -/
def Obligations.EretWithoutProcessIsFatal : Prop :=
  ∀ s : State, s.priv = .kernel →
    (psPointer s = 0#32 → exec .eret s = .next (fatalState .eretNoProcess (committedState s))) ∧
    (psPointer s ≠ 0#32 →
      (readStart (psPointer s + 10#32).toNat .kernel ≠ none ∨ crossing (psPointer s + 10#32).toNat 4 = true) →
      exec .eret s = .next (fatalState .psAccess (committedState s)))

/-- LDIR, LDCSTR and RESR in kernel mode complete: rd gets `cur + 4`, the committed CSTR or ESR, zero-extended, and nothing
else changes (R249, R250, R252; log entries 26, 28). -/
def Obligations.SystemReadsWriteTheSpecialRegister : Prop :=
  ∀ (rd : RegIdx) (s : State), s.priv = .kernel →
    (∃ t, exec (.ldir rd) s = .next t ∧ WritesOneRegister rd s.pc s t) ∧
    (∃ t, exec (.ldcstr rd) s = .next t ∧ WritesOneRegister rd ((committedCstr s).setWidth 32) s t) ∧
    (∃ t, exec (.resr rd) s = .next t ∧ WritesOneRegister rd (s.esr.setWidth 32) s t)

/-- MVCSTR in kernel mode completes: the latch holds the low 15 bits of rs with the pending marker, and the live CSTR is
not written (R251, R33). -/
def Obligations.MvcstrLatchesTheValue : Prop :=
  ∀ (rs : RegIdx) (s : State), s.priv = .kernel →
    exec (.mvcstr rs) s =
      .next { committedState s with cstrLatch := (readReg rs s).setWidth 16 ||| 0x8000#16 }

/-- The table of R228 on a status word, said bit by bit (Z is bit 3, O bit 1, N bit 2, C bit 0: D12, log entry 7). -/
def Sys2Proof.Machine.condOn (c : Cond) (x : Half) : Bool :=
  match c with
  | .eq => x.getLsbD 3
  | .ne => !x.getLsbD 3
  | .ov => x.getLsbD 1
  | .nv => !x.getLsbD 1
  | .mi => x.getLsbD 2
  | .pz => !x.getLsbD 2
  | .cc => !x.getLsbD 0
  | .cs => x.getLsbD 0
  | .gt => (x.getLsbD 2 == x.getLsbD 1) && !x.getLsbD 3
  | .ge => x.getLsbD 2 == x.getLsbD 1
  | .lt => x.getLsbD 2 != x.getLsbD 1
  | .le => (x.getLsbD 2 != x.getLsbD 1) || x.getLsbD 3

/-- The one hazard (R320, R321): after an MVCSTR, a conditional branch of any of the twelve conditions tests the old flags and
commits the new value, while an LDCSTR there, where the old value leaves the core in kernel mode, returns the new value with
bit 15 clear (a write to index 30 is dropped, R22); nothing is then left pending (the commit points are the spec's choice D41: log entry 26). -/
def Obligations.InstructionAfterMvcstrSplitsOldAndNew : Prop :=
  ∀ (rs rd : RegIdx) (off : BitVec 19) (s t : State), s.priv = .kernel → exec (.mvcstr rs) s = .next t →
    (∀ c : Cond, ∃ u, exec (condInstr c off) (advance t) = .next u ∧
      u.pc = bccTarget (condOn c (committedCstr s)) off (advance t) ∧
      u.cstr = (readReg rs s).setWidth 16 &&& 0x7FFF#16 ∧ u.cstrLatch = 0#16) ∧
    (privOf (committedCstr s) = .kernel →
      ∃ u, exec (.ldcstr rd) (advance t) = .next u ∧
        readReg rd u = (if rd = 30#5 then readReg rd s else readReg rs s &&& 0x7FFF#32) ∧ u.cstrLatch = 0#16)

/-! ### The cycle and exceptions -/

/-- A step runs the decoded instruction: where four bytes may be fetched at `pc` and decode to `i`, the step is `exec i` on
the state with status RUNNING and `pc` advanced, and then the end of the cycle (R120, R121; the little-endian word is the
spec's choice D15: log entry 23). That a `run` at the head of the host's schedule adds nothing is no rule of the spec but the
MODEL's choice: the schedule is the model's (log entry 15). -/
def Obligations.StepRunsTheDecodedInstruction : Prop :=
  ∀ (s : State) (i : Instr), Runs s → fetchStart s.pc.toNat s.priv = none → crossing s.pc.toNat 4 = false →
    decodeBytes [Memory.get s.mem s.pc.toNat, Memory.get s.mem (s.pc.toNat + 1), Memory.get s.mem (s.pc.toNat + 2),
      Memory.get s.mem (s.pc.toNat + 3)] = .ok (i, []) →
    step s = finishCycle (exec i (fetchedState s)) ∧
    (∀ rest, step { s with hostInputs := .run :: rest } =
      finishCycle (exec i (fetchedState { s with hostInputs := rest })))

/-- What stands around `exec` in a step (R139, R290): a next state ends its cycle; a fatal fault has already stopped it; else
the counter advances, and where it reaches SAFETY_LIMIT (a free value: log entry 2) a core still running goes to HALTED with
the halt check's report. -/
def Obligations.EndOfCycleCountsAndHalts : Prop :=
  ∀ s : State,
    finishCycle (.next s) = .next (endOfCycle s) ∧
    (s.fatalFlag = true → endOfCycle s = s) ∧
    (s.fatalFlag = false → (s.status = .running ∨ s.status = .exception) →
      endOfCycle s = if Config.safetyLimit ≤ s.cyc + 1 then haltCheck { s with cyc := s.cyc + 1, status := .halted }
        else { s with cyc := s.cyc + 1 }) ∧
    (s.fatalFlag = false → (s.status = .halted ∨ s.status = .ioWait) → endOfCycle s = { s with cyc := s.cyc + 1 })

/-- A fetch error in kernel mode is fatal; in user mode it is the instruction abort, ESR 0x0100 with the error's code and
tag 1, and the address saved is `cur + 4` (R122; that address and the codes are the spec's choices: log entries 27, 35). -/
def Obligations.FetchErrorsByPrivilege : Prop :=
  ∀ (s : State) (e : MemoryError), Runs s → fetchWord s = .error e →
    (s.priv = .kernel → step s = .next (fatalState (.kernelFetch e) (fetchedState s))) ∧
    (s.priv = .user → Memory.wf s.mem = true → PsWritable s →
      ∃ t, step s = .next (endOfCycle t) ∧ Delivers (0x0100#16 ||| e.code.setWidth 16) 1#8 (fetchedState s) t)

/-- A MemoryError of a fetch, a load or a store leads to the abort of its kind in user mode and to a fatal fault in kernel
mode (R69; the load and the store are seen with any CSTR commit done, R134), and an error of the core's own kernel-privilege
accesses to the process-state record is fatal (R280, R290). That a failed write of the tag leaves the saved IP's four bytes
written is the MODEL's deduction from the order of R280 and from R290, not a sentence of the spec: log entry 20. -/
def Obligations.MemoryErrorsLeadToAbortsOrFatalFaults : Prop :=
  ∀ (s : State) (e : MemoryError),
    (s.priv = .user → fetchError e s = deliver (.instrAbort e) s ∧ accessError e s = deliver (.dataAbort e) s) ∧
    (s.priv = .kernel → fetchError e s = fatal (.kernelFetch e) s ∧ accessError e s = fatal (.kernelData e) s) ∧
    (∀ w rd rb off, s.cstrLatch.getLsbD 15 = false → checkedRead .data (effAddr rb off s) w s.priv s.mem = .error e →
      load w rd rb off s = accessError e s) ∧
    (∀ w rd rb off, s.cstrLatch.getLsbD 15 = false →
      checkedWrite (effAddr rb off s) w (readReg rd s) s.priv s.mem = .error e → store w rd rb off s = accessError e s) ∧
    (Runs s → fetchWord s = .error e → step s = .next (endOfCycle (fetchError e (fetchedState s)))) ∧
    (∀ x, psPointer s ≠ 0#32 → checkedWrite (psPointer s + 10#32) .word s.pc .kernel s.mem = .error e →
      deliver x s = fatal .psAccess s) ∧
    (∀ x m, psPointer s ≠ 0#32 → checkedWrite (psPointer s + 10#32) .word s.pc .kernel s.mem = .ok m →
      checkedWrite (psPointer s + 566#32) .byte (x.tag.setWidth 32) .kernel m = .error e →
      deliver x s = fatal .psAccess { s with mem := m }) ∧
    (psPointer s ≠ 0#32 → checkedRead .data (psPointer s + 10#32) .word .kernel s.mem = .error e →
      returnFromException s = fatal .psAccess s) ∧
    (psPointer s ≠ 0#32 → checkedRead .data (psPointer s + 566#32) .byte .kernel s.mem = .error e →
      haltCheck s = fatal .psAccess s)

/-- OP_ERROR is the invalid-instruction exception in user mode, ESR 0x0200 and tag 2, and a fatal fault in kernel mode (R124,
R276, R280; the tag and the ESR value are the spec's choice D25, log entry 27; the address saved, `cur + 4`, and the whole of
what delivery saves are its choices D28 and D29, log entry 35). -/
def Obligations.InvalidOpcodesByPrivilege : Prop :=
  ∀ (s : State) (w : Word) (e : DecodeError), Runs s → fetchWord s = .ok w → decodeWord w = .error e →
    (s.priv = .kernel → step s = .next (fatalState .kernelInvalidOpcode (fetchedState s))) ∧
    (s.priv = .user → Memory.wf s.mem = true → PsWritable s →
      ∃ t, step s = .next (endOfCycle t) ∧ Delivers 0x0200#16 2#8 (fetchedState s) t)

/-- Delivery to a record whose saved-IP place the kernel may not write is the fatal fault PS_ACCESS, and no byte is written
(R280, R290). A record whose saved-IP place is admitted and whose tag place is not is another case: there four bytes are
written, as MemoryErrorsLeadToAbortsOrFatalFaults states (log entry 20). -/
def Obligations.DeliveryToAnUnwritableRecordIsFatal : Prop :=
  ∀ (e : GuestException) (s : State), psPointer s ≠ 0#32 →
    (writeStart (psPointer s + 10#32).toNat .kernel ≠ none ∨ crossing (psPointer s + 10#32).toNat 4 = true) →
    deliver e s = fatalState .psAccess s

/-- Every running core has a next state: no instruction, no fetched word and no fault of the guest stops the machine
without one (R120, R143). -/
def Obligations.RunningCoreAlwaysSteps : Prop :=
  ∀ s : State, Runs s → ∃ t, step s = .next t

/-- R295 and R35: a core that is HALTED or in IO_WAIT takes no step while the host does nothing, and after a fatal fault
nothing the host does has an effect (that no step is a named stop is the model's choice: log entries 13, 14). -/
def Obligations.WaitingCoreTakesNoStep : Prop :=
  ∀ s : State,
    (s.fatalFlag = true → step s = .fault .fatalStopped) ∧
    (s.fatalFlag = false → s.hostInputs = [] → s.paused = true → step s = .fault .paused) ∧
    (s.fatalFlag = false → s.hostInputs = [] → s.paused = false → s.status = .halted → step s = .fault .halted) ∧
    (s.fatalFlag = false → s.hostInputs = [] → s.paused = false → s.status = .ioWait → step s = .fault .ioWaiting)

/-- `resume`, `acknowledge`, pause and unpause do what R296 and R141 list, and nothing else (taking them from a schedule is
the model's choice: log entry 15). -/
def Obligations.HostCallsChangeOnlyWhatTheyName : Prop :=
  ∀ (s : State) (entry : Word) (kind : Nat) (rest : List HostInput), s.fatalFlag = false →
    ((s.status = .halted ∨ s.status = .ioWait) → step { s with hostInputs := .resume entry :: rest } =
      .next { s with hostInputs := rest, pc := entry, status := .running, cyc := 0 }) ∧
    ((s.status = .running ∨ s.status = .exception) → step { s with hostInputs := .resume entry :: rest } =
      .next { s with hostInputs := rest }) ∧
    (s.status = .ioWait → step { s with hostInputs := .acknowledge kind :: rest } =
      .next { s with hostInputs := rest, status := .running, cyc := 0 }) ∧
    (s.status ≠ .ioWait → step { s with hostInputs := .acknowledge kind :: rest } = .next { s with hostInputs := rest }) ∧
    step { s with hostInputs := .pause :: rest } = .next { s with hostInputs := rest, paused := true } ∧
    step { s with hostInputs := .unpause :: rest } = .next { s with hostInputs := rest, paused := false }

/-- The host writes any byte of the memory buffer while HALTED and the staged buffer's bytes while IO_WAIT, and changes
nothing else; it is refused outside the staged buffer, with nothing staged, at or above MEM_SIZE, and while cycles run (R297,
R76; the exact window, its end at MEM_SIZE and the refusal are the model's choices: log entry 16). -/
def Obligations.HostWritesOnlyWhileTheCoreWaits : Prop :=
  ∀ (s : State) (a : Word) (v : Byte) (rest : List HostInput), s.fatalFlag = false → Memory.wf s.mem = true →
    s.hostInputs = .write a v :: rest →
    (s.status = .halted → a.toNat < Config.memSize → ∃ t, step s = .next t ∧ Memory.get t.mem a.toNat = v ∧
      (∀ b : Nat, b ≠ a.toNat → Memory.get t.mem b = Memory.get s.mem b) ∧ { t with mem := s.mem } = { s with hostInputs := rest }) ∧
    (∀ r : IoRequest, s.status = .ioWait → s.ioRequest = some r → a.toNat < Config.memSize →
      r.bufferAddress.toNat ≤ a.toNat → a.toNat < r.bufferAddress.toNat + r.length.toNat →
      ∃ t, step s = .next t ∧ Memory.get t.mem a.toNat = v ∧
        (∀ b : Nat, b ≠ a.toNat → Memory.get t.mem b = Memory.get s.mem b) ∧ { t with mem := s.mem } = { s with hostInputs := rest }) ∧
    (∀ r : IoRequest, s.status = .ioWait → s.ioRequest = some r →
      (a.toNat < r.bufferAddress.toNat ∨ r.bufferAddress.toNat + r.length.toNat ≤ a.toNat) →
      step s = .refused .hostWriteNotAllowed) ∧
    (s.status = .ioWait → s.ioRequest = none → step s = .refused .hostWriteNotAllowed) ∧
    ((s.status = .halted ∨ s.status = .ioWait) → Config.memSize ≤ a.toNat → step s = .refused .hostWriteNotAllowed) ∧
    ((s.status = .running ∨ s.status = .exception) → step s = .refused .hostWriteNotAllowed)

/-! ### Reset and invariants -/

/-- The values after reset (R310, R41: the spec's own choices D11, D13, D14, log entry 10): registers, SP, `pc`, ESR, latch
and counter 0, CSTR 0x0020, HALTED, no fatal fault and no report made. -/
def Obligations.ResetValues : Prop :=
  (∀ i : RegIdx, readReg i State.reset = 0#32) ∧ State.reset.pc = 0#32 ∧ State.reset.cstr = 0x0020#16 ∧
    State.reset.priv = .kernel ∧ State.reset.esr = 0#16 ∧ State.reset.cstrLatch = 0#16 ∧
    State.reset.status = .halted ∧ State.reset.cyc = 0 ∧ State.reset.fatalFlag = false ∧ State.reset.outbox = []

/-- The invariant holds after reset (R41). -/
def Obligations.ResetSatisfiesTheInvariant : Prop := State.reset.Inv

/-- Every step keeps the invariant: r30 is 0, bit 15 of CSTR is 0, the latch is pending or 0, memory is canonical and in
the buffer, a running core is below the safety limit, an IO wait has its request, and fatal faults are reported (R23, R30,
R33, R50, R139, R244, R290). -/
def Obligations.StepKeepsTheInvariant : Prop :=
  ∀ s t : State, s.Inv → step s = .next t → t.Inv

/-- Privilege changes only as R299 says: with no CSTR value pending, user mode becomes kernel mode only at the exception
vector, and kernel mode becomes user mode only by an ERET. -/
def Obligations.PrivilegeChangesOnlyByDeliveryEretOrCommit : Prop :=
  ∀ s t : State, s.cstrLatch.getLsbD 15 = false → step s = .next t →
    (s.priv = .user → t.priv = .kernel → t.pc = Config.excVector ∧ (t.status = .exception ∨ t.status = .halted)) ∧
    (s.priv = .kernel → t.priv = .user → ∃ w, fetchWord s = .ok w ∧ decodeWord w = .ok .eret)

/-- With no CSTR value pending and no host action scheduled, a user step changes no byte of memory outside UBSS, UDATA, UHEAP
and USTACK but the saved address and the tag of the active record (R64, R280, R298). A pending value with PRIV 1, committed
by the instruction before its own access (R127), would let that access write as the kernel. -/
def Obligations.UserStepsChangeOnlyUserMemory : Prop :=
  ∀ s t : State, Memory.wf s.mem = true → s.priv = .user → s.cstrLatch.getLsbD 15 = false → s.hostInputs = [] →
    step s = .next t →
    ∀ a : Nat, ¬UserWritable a → ¬InPsSlots s a → Memory.get t.mem a = Memory.get s.mem a

/-- With no CSTR value pending and no host action scheduled, a user step learns nothing of memory the user may not read: two
memories that agree on every user-readable byte leave the same registers and the same condition flags (R62, R60, R282). -/
def Obligations.UserRegistersDoNotDependOnKernelMemory : Prop :=
  ∀ (s t t' : State) (m : Memory), s.priv = .user → s.cstrLatch.getLsbD 15 = false → s.hostInputs = [] →
    (∀ a : Nat, readStart a .user = none → Memory.get m a = Memory.get s.mem a) →
    step s = .next t → step { s with mem := m } = .next t' →
    (∀ i : RegIdx, readReg i t = readReg i t') ∧ flagsOf t.cstr = flagsOf t'.cstr

/-- The instructions the flags column of R104 marks: ADDS, SUBS and CMP, in both forms. -/
def Sys2Proof.setsFlags : Instr → Bool
  | .addsImm _ _ _ | .addsReg _ _ _ | .subsImm _ _ _ | .subsReg _ _ _ | .cmpImm _ _ | .cmpReg _ _ => true
  | _ => false

/-- R26: the flags change in exactly two ways. A step, whatever it is (a cycle that runs an instruction, one that takes a
fetch error or OP_ERROR, an action of the host), leaves C, O, N and Z as they are, or as the pending CSTR value has them, or it
is a cycle whose fetched word is an ADDS, SUBS or CMP. An instruction other than these leaves the flags as they are, or as the
pending value it commits has them; ADDS, SUBS and CMP write all four, so that nothing of the old flags is left; the commit
replaces the whole register; and conditional branches read the flags. -/
def Obligations.FlagsChangeInTwoWaysOnly : Prop :=
  (∀ s t : State, step s = .next t →
    flagsOf t.cstr = flagsOf s.cstr ∨ (s.cstrLatch.getLsbD 15 = true ∧ flagsOf t.cstr = flagsOf s.cstrLatch) ∨
      ((∀ a rest, s.hostInputs = a :: rest → a = .run) ∧
        ∃ w i, fetchWord s = .ok w ∧ decodeWord w = .ok i ∧ setsFlags i = true)) ∧
  (∀ (i : Instr) (s t : State), setsFlags i = false → exec i s = .next t →
    flagsOf t.cstr = flagsOf s.cstr ∨ (s.cstrLatch.getLsbD 15 = true ∧ flagsOf t.cstr = flagsOf s.cstrLatch)) ∧
  (∀ (i : Instr) (s : State) (f : Flags), setsFlags i = true → ∃ t t', exec i s = .next t ∧
    exec i { s with cstr := putFlags s.cstr f } = .next t' ∧ flagsOf t'.cstr = flagsOf t.cstr) ∧
  (∀ s : State, s.cstrLatch.getLsbD 15 = true → (regFileAccess s).cstr = s.cstrLatch &&& 0x7FFF#16) ∧
  (∀ (c : Cond) (off : BitVec 19) (s : State), ∃ t, exec (condInstr c off) s = .next t ∧
    t.pc = bccTarget (condHolds c (flagsOf s.cstr)) off s)
end

