-- ==== Sys2Proof/Laws/State.lean ====
section
/-! SUPPORT. One lemma per field per update of State, so that no proof unfolds a record update. -/

namespace Sys2Proof.Machine

/-! ### writeFlags -/

@[simp] theorem writeFlags_gpr (f : Flags) (s : State) : (writeFlags f s).gpr = s.gpr := rfl
@[simp] theorem writeFlags_sp (f : Flags) (s : State) : (writeFlags f s).sp = s.sp := rfl
@[simp] theorem writeFlags_pc (f : Flags) (s : State) : (writeFlags f s).pc = s.pc := rfl
@[simp] theorem writeFlags_cstr (f : Flags) (s : State) : (writeFlags f s).cstr = putFlags s.cstr f := rfl
@[simp] theorem writeFlags_esr (f : Flags) (s : State) : (writeFlags f s).esr = s.esr := rfl
@[simp] theorem writeFlags_cstrLatch (f : Flags) (s : State) : (writeFlags f s).cstrLatch = s.cstrLatch := rfl
@[simp] theorem writeFlags_status (f : Flags) (s : State) : (writeFlags f s).status = s.status := rfl
@[simp] theorem writeFlags_cyc (f : Flags) (s : State) : (writeFlags f s).cyc = s.cyc := rfl
@[simp] theorem writeFlags_fatalFlag (f : Flags) (s : State) : (writeFlags f s).fatalFlag = s.fatalFlag := rfl
@[simp] theorem writeFlags_mem (f : Flags) (s : State) : (writeFlags f s).mem = s.mem := rfl
@[simp] theorem writeFlags_paused (f : Flags) (s : State) : (writeFlags f s).paused = s.paused := rfl
@[simp] theorem writeFlags_ioRequest (f : Flags) (s : State) : (writeFlags f s).ioRequest = s.ioRequest := rfl
@[simp] theorem writeFlags_outbox (f : Flags) (s : State) : (writeFlags f s).outbox = s.outbox := rfl
@[simp] theorem writeFlags_hostInputs (f : Flags) (s : State) : (writeFlags f s).hostInputs = s.hostInputs := rfl
@[simp] theorem writeFlags_ioDraws (f : Flags) (s : State) : (writeFlags f s).ioDraws = s.ioDraws := rfl

/-! ### callHost -/

@[simp] theorem callHost_gpr (c : CoreCall) (s : State) : (callHost c s).gpr = s.gpr := rfl
@[simp] theorem callHost_sp (c : CoreCall) (s : State) : (callHost c s).sp = s.sp := rfl
@[simp] theorem callHost_pc (c : CoreCall) (s : State) : (callHost c s).pc = s.pc := rfl
@[simp] theorem callHost_cstr (c : CoreCall) (s : State) : (callHost c s).cstr = s.cstr := rfl
@[simp] theorem callHost_esr (c : CoreCall) (s : State) : (callHost c s).esr = s.esr := rfl
@[simp] theorem callHost_cstrLatch (c : CoreCall) (s : State) : (callHost c s).cstrLatch = s.cstrLatch := rfl
@[simp] theorem callHost_status (c : CoreCall) (s : State) : (callHost c s).status = s.status := rfl
@[simp] theorem callHost_cyc (c : CoreCall) (s : State) : (callHost c s).cyc = s.cyc := rfl
@[simp] theorem callHost_fatalFlag (c : CoreCall) (s : State) : (callHost c s).fatalFlag = (s.fatalFlag || CoreCall.isFatal c) := rfl
@[simp] theorem callHost_mem (c : CoreCall) (s : State) : (callHost c s).mem = s.mem := rfl
@[simp] theorem callHost_paused (c : CoreCall) (s : State) : (callHost c s).paused = s.paused := rfl
@[simp] theorem callHost_ioRequest (c : CoreCall) (s : State) : (callHost c s).ioRequest = s.ioRequest := rfl
@[simp] theorem callHost_outbox (c : CoreCall) (s : State) : (callHost c s).outbox = c :: s.outbox := rfl
@[simp] theorem callHost_hostInputs (c : CoreCall) (s : State) : (callHost c s).hostInputs = s.hostInputs := rfl
@[simp] theorem callHost_ioDraws (c : CoreCall) (s : State) : (callHost c s).ioDraws = s.ioDraws := rfl

/-! ### fatal -/

@[simp] theorem fatal_gpr (r : FatalReason) (s : State) : (fatal r s).gpr = s.gpr := rfl
@[simp] theorem fatal_sp (r : FatalReason) (s : State) : (fatal r s).sp = s.sp := rfl
@[simp] theorem fatal_pc (r : FatalReason) (s : State) : (fatal r s).pc = s.pc := rfl
@[simp] theorem fatal_cstr (r : FatalReason) (s : State) : (fatal r s).cstr = s.cstr := rfl
@[simp] theorem fatal_esr (r : FatalReason) (s : State) : (fatal r s).esr = s.esr := rfl
@[simp] theorem fatal_cstrLatch (r : FatalReason) (s : State) : (fatal r s).cstrLatch = s.cstrLatch := rfl
@[simp] theorem fatal_status (r : FatalReason) (s : State) : (fatal r s).status = s.status := rfl
@[simp] theorem fatal_cyc (r : FatalReason) (s : State) : (fatal r s).cyc = s.cyc := rfl
@[simp] theorem fatal_fatalFlag (r : FatalReason) (s : State) : (fatal r s).fatalFlag = true := Bool.or_true _
@[simp] theorem fatal_mem (r : FatalReason) (s : State) : (fatal r s).mem = s.mem := rfl
@[simp] theorem fatal_paused (r : FatalReason) (s : State) : (fatal r s).paused = s.paused := rfl
@[simp] theorem fatal_ioRequest (r : FatalReason) (s : State) : (fatal r s).ioRequest = s.ioRequest := rfl
@[simp] theorem fatal_outbox (r : FatalReason) (s : State) : (fatal r s).outbox = .deliverFatal r :: s.outbox := rfl
@[simp] theorem fatal_hostInputs (r : FatalReason) (s : State) : (fatal r s).hostInputs = s.hostInputs := rfl
@[simp] theorem fatal_ioDraws (r : FatalReason) (s : State) : (fatal r s).ioDraws = s.ioDraws := rfl

/-! ### haltCheck -/

@[simp] theorem haltCheck_gpr (s : State) : (haltCheck s).gpr = s.gpr := rfl
@[simp] theorem haltCheck_sp (s : State) : (haltCheck s).sp = s.sp := rfl
@[simp] theorem haltCheck_pc (s : State) : (haltCheck s).pc = s.pc := rfl
@[simp] theorem haltCheck_cstr (s : State) : (haltCheck s).cstr = s.cstr := rfl
@[simp] theorem haltCheck_esr (s : State) : (haltCheck s).esr = s.esr := rfl
@[simp] theorem haltCheck_cstrLatch (s : State) : (haltCheck s).cstrLatch = s.cstrLatch := rfl
@[simp] theorem haltCheck_status (s : State) : (haltCheck s).status = s.status := rfl
@[simp] theorem haltCheck_cyc (s : State) : (haltCheck s).cyc = s.cyc := rfl
@[simp] theorem haltCheck_fatalFlag (s : State) : (haltCheck s).fatalFlag = (s.fatalFlag || CoreCall.isFatal (haltVerdict s)) := rfl
@[simp] theorem haltCheck_mem (s : State) : (haltCheck s).mem = s.mem := rfl
@[simp] theorem haltCheck_paused (s : State) : (haltCheck s).paused = s.paused := rfl
@[simp] theorem haltCheck_ioRequest (s : State) : (haltCheck s).ioRequest = s.ioRequest := rfl
@[simp] theorem haltCheck_outbox (s : State) : (haltCheck s).outbox = haltVerdict s :: s.outbox := rfl
@[simp] theorem haltCheck_hostInputs (s : State) : (haltCheck s).hostInputs = s.hostInputs := rfl
@[simp] theorem haltCheck_ioDraws (s : State) : (haltCheck s).ioDraws = s.ioDraws := rfl

/-! ### enterHandler -/

@[simp] theorem enterHandler_gpr (e : GuestException) (s : State) : (enterHandler e s).gpr = s.gpr := rfl
@[simp] theorem enterHandler_sp (e : GuestException) (s : State) : (enterHandler e s).sp = s.sp := rfl
@[simp] theorem enterHandler_pc (e : GuestException) (s : State) : (enterHandler e s).pc = Config.excVector := rfl
@[simp] theorem enterHandler_cstr (e : GuestException) (s : State) : (enterHandler e s).cstr = cstrSet s.cstr .priv true := rfl
@[simp] theorem enterHandler_esr (e : GuestException) (s : State) : (enterHandler e s).esr = GuestException.esr e := rfl
@[simp] theorem enterHandler_cstrLatch (e : GuestException) (s : State) : (enterHandler e s).cstrLatch = s.cstrLatch := rfl
@[simp] theorem enterHandler_status (e : GuestException) (s : State) : (enterHandler e s).status = .exception := rfl
@[simp] theorem enterHandler_cyc (e : GuestException) (s : State) : (enterHandler e s).cyc = s.cyc := rfl
@[simp] theorem enterHandler_fatalFlag (e : GuestException) (s : State) : (enterHandler e s).fatalFlag = s.fatalFlag := rfl
@[simp] theorem enterHandler_mem (e : GuestException) (s : State) : (enterHandler e s).mem = s.mem := rfl
@[simp] theorem enterHandler_paused (e : GuestException) (s : State) : (enterHandler e s).paused = s.paused := rfl
@[simp] theorem enterHandler_ioRequest (e : GuestException) (s : State) : (enterHandler e s).ioRequest = s.ioRequest := rfl
@[simp] theorem enterHandler_outbox (e : GuestException) (s : State) : (enterHandler e s).outbox = s.outbox := rfl
@[simp] theorem enterHandler_hostInputs (e : GuestException) (s : State) : (enterHandler e s).hostInputs = s.hostInputs := rfl
@[simp] theorem enterHandler_ioDraws (e : GuestException) (s : State) : (enterHandler e s).ioDraws = s.ioDraws := rfl

/-! ### advance -/

@[simp] theorem advance_gpr (s : State) : (advance s).gpr = s.gpr := rfl
@[simp] theorem advance_sp (s : State) : (advance s).sp = s.sp := rfl
@[simp] theorem advance_pc (s : State) : (advance s).pc = s.pc + 4#32 := rfl
@[simp] theorem advance_cstr (s : State) : (advance s).cstr = s.cstr := rfl
@[simp] theorem advance_esr (s : State) : (advance s).esr = s.esr := rfl
@[simp] theorem advance_cstrLatch (s : State) : (advance s).cstrLatch = s.cstrLatch := rfl
@[simp] theorem advance_status (s : State) : (advance s).status = s.status := rfl
@[simp] theorem advance_cyc (s : State) : (advance s).cyc = s.cyc := rfl
@[simp] theorem advance_fatalFlag (s : State) : (advance s).fatalFlag = s.fatalFlag := rfl
@[simp] theorem advance_mem (s : State) : (advance s).mem = s.mem := rfl
@[simp] theorem advance_paused (s : State) : (advance s).paused = s.paused := rfl
@[simp] theorem advance_ioRequest (s : State) : (advance s).ioRequest = s.ioRequest := rfl
@[simp] theorem advance_outbox (s : State) : (advance s).outbox = s.outbox := rfl
@[simp] theorem advance_hostInputs (s : State) : (advance s).hostInputs = s.hostInputs := rfl
@[simp] theorem advance_ioDraws (s : State) : (advance s).ioDraws = s.ioDraws := rfl

/-! ### setIe -/

@[simp] theorem setIe_gpr (v : Bool) (s : State) : (setIe v s).gpr = s.gpr := rfl
@[simp] theorem setIe_sp (v : Bool) (s : State) : (setIe v s).sp = s.sp := rfl
@[simp] theorem setIe_pc (v : Bool) (s : State) : (setIe v s).pc = s.pc := rfl
@[simp] theorem setIe_cstr (v : Bool) (s : State) : (setIe v s).cstr = cstrSet s.cstr .ie v := rfl
@[simp] theorem setIe_esr (v : Bool) (s : State) : (setIe v s).esr = s.esr := rfl
@[simp] theorem setIe_cstrLatch (v : Bool) (s : State) : (setIe v s).cstrLatch = s.cstrLatch := rfl
@[simp] theorem setIe_status (v : Bool) (s : State) : (setIe v s).status = s.status := rfl
@[simp] theorem setIe_cyc (v : Bool) (s : State) : (setIe v s).cyc = s.cyc := rfl
@[simp] theorem setIe_fatalFlag (v : Bool) (s : State) : (setIe v s).fatalFlag = s.fatalFlag := rfl
@[simp] theorem setIe_mem (v : Bool) (s : State) : (setIe v s).mem = s.mem := rfl
@[simp] theorem setIe_paused (v : Bool) (s : State) : (setIe v s).paused = s.paused := rfl
@[simp] theorem setIe_ioRequest (v : Bool) (s : State) : (setIe v s).ioRequest = s.ioRequest := rfl
@[simp] theorem setIe_outbox (v : Bool) (s : State) : (setIe v s).outbox = s.outbox := rfl
@[simp] theorem setIe_hostInputs (v : Bool) (s : State) : (setIe v s).hostInputs = s.hostInputs := rfl
@[simp] theorem setIe_ioDraws (v : Bool) (s : State) : (setIe v s).ioDraws = s.ioDraws := rfl

/-! ### regFileAccess -/

@[simp] theorem regFileAccess_gpr (s : State) : (regFileAccess s).gpr = s.gpr := by unfold regFileAccess; split <;> rfl
@[simp] theorem regFileAccess_sp (s : State) : (regFileAccess s).sp = s.sp := by unfold regFileAccess; split <;> rfl
@[simp] theorem regFileAccess_pc (s : State) : (regFileAccess s).pc = s.pc := by unfold regFileAccess; split <;> rfl
@[simp] theorem regFileAccess_cstr (s : State) : (regFileAccess s).cstr = committedCstr s := by
  unfold regFileAccess committedCstr Config.pendingPos
  cases s.cstrLatch.getLsbD 15 <;> rfl
@[simp] theorem regFileAccess_esr (s : State) : (regFileAccess s).esr = s.esr := by unfold regFileAccess; split <;> rfl
@[simp] theorem regFileAccess_cstrLatch (s : State) : (regFileAccess s).cstrLatch = committedLatch s := by
  unfold regFileAccess committedLatch Config.pendingPos
  cases s.cstrLatch.getLsbD 15 <;> rfl
@[simp] theorem regFileAccess_status (s : State) : (regFileAccess s).status = s.status := by unfold regFileAccess; split <;> rfl
@[simp] theorem regFileAccess_cyc (s : State) : (regFileAccess s).cyc = s.cyc := by unfold regFileAccess; split <;> rfl
@[simp] theorem regFileAccess_fatalFlag (s : State) : (regFileAccess s).fatalFlag = s.fatalFlag := by unfold regFileAccess; split <;> rfl
@[simp] theorem regFileAccess_mem (s : State) : (regFileAccess s).mem = s.mem := by unfold regFileAccess; split <;> rfl
@[simp] theorem regFileAccess_paused (s : State) : (regFileAccess s).paused = s.paused := by unfold regFileAccess; split <;> rfl
@[simp] theorem regFileAccess_ioRequest (s : State) : (regFileAccess s).ioRequest = s.ioRequest := by unfold regFileAccess; split <;> rfl
@[simp] theorem regFileAccess_outbox (s : State) : (regFileAccess s).outbox = s.outbox := by unfold regFileAccess; split <;> rfl
@[simp] theorem regFileAccess_hostInputs (s : State) : (regFileAccess s).hostInputs = s.hostInputs := by unfold regFileAccess; split <;> rfl
@[simp] theorem regFileAccess_ioDraws (s : State) : (regFileAccess s).ioDraws = s.ioDraws := by unfold regFileAccess; split <;> rfl

/-! ### putReg -/

@[simp] theorem putReg_pc (i : RegIdx) (v : Word) (s : State) : (putReg i v s).pc = s.pc := by unfold putReg; split; rfl; split <;> rfl
@[simp] theorem putReg_cstr (i : RegIdx) (v : Word) (s : State) : (putReg i v s).cstr = s.cstr := by unfold putReg; split; rfl; split <;> rfl
@[simp] theorem putReg_esr (i : RegIdx) (v : Word) (s : State) : (putReg i v s).esr = s.esr := by unfold putReg; split; rfl; split <;> rfl
@[simp] theorem putReg_cstrLatch (i : RegIdx) (v : Word) (s : State) : (putReg i v s).cstrLatch = s.cstrLatch := by unfold putReg; split; rfl; split <;> rfl
@[simp] theorem putReg_status (i : RegIdx) (v : Word) (s : State) : (putReg i v s).status = s.status := by unfold putReg; split; rfl; split <;> rfl
@[simp] theorem putReg_cyc (i : RegIdx) (v : Word) (s : State) : (putReg i v s).cyc = s.cyc := by unfold putReg; split; rfl; split <;> rfl
@[simp] theorem putReg_fatalFlag (i : RegIdx) (v : Word) (s : State) : (putReg i v s).fatalFlag = s.fatalFlag := by unfold putReg; split; rfl; split <;> rfl
@[simp] theorem putReg_mem (i : RegIdx) (v : Word) (s : State) : (putReg i v s).mem = s.mem := by unfold putReg; split; rfl; split <;> rfl
@[simp] theorem putReg_paused (i : RegIdx) (v : Word) (s : State) : (putReg i v s).paused = s.paused := by unfold putReg; split; rfl; split <;> rfl
@[simp] theorem putReg_ioRequest (i : RegIdx) (v : Word) (s : State) : (putReg i v s).ioRequest = s.ioRequest := by unfold putReg; split; rfl; split <;> rfl
@[simp] theorem putReg_outbox (i : RegIdx) (v : Word) (s : State) : (putReg i v s).outbox = s.outbox := by unfold putReg; split; rfl; split <;> rfl
@[simp] theorem putReg_hostInputs (i : RegIdx) (v : Word) (s : State) : (putReg i v s).hostInputs = s.hostInputs := by unfold putReg; split; rfl; split <;> rfl
@[simp] theorem putReg_ioDraws (i : RegIdx) (v : Word) (s : State) : (putReg i v s).ioDraws = s.ioDraws := by unfold putReg; split; rfl; split <;> rfl

/-! ### writeReg -/

@[simp] theorem writeReg_pc (i : RegIdx) (v : Word) (s : State) : (writeReg i v s).pc = s.pc := by simp [writeReg]
@[simp] theorem writeReg_cstr (i : RegIdx) (v : Word) (s : State) : (writeReg i v s).cstr = committedCstr s := by simp [writeReg]
@[simp] theorem writeReg_esr (i : RegIdx) (v : Word) (s : State) : (writeReg i v s).esr = s.esr := by simp [writeReg]
@[simp] theorem writeReg_cstrLatch (i : RegIdx) (v : Word) (s : State) : (writeReg i v s).cstrLatch = committedLatch s := by simp [writeReg]
@[simp] theorem writeReg_status (i : RegIdx) (v : Word) (s : State) : (writeReg i v s).status = s.status := by simp [writeReg]
@[simp] theorem writeReg_cyc (i : RegIdx) (v : Word) (s : State) : (writeReg i v s).cyc = s.cyc := by simp [writeReg]
@[simp] theorem writeReg_fatalFlag (i : RegIdx) (v : Word) (s : State) : (writeReg i v s).fatalFlag = s.fatalFlag := by simp [writeReg]
@[simp] theorem writeReg_mem (i : RegIdx) (v : Word) (s : State) : (writeReg i v s).mem = s.mem := by simp [writeReg]
@[simp] theorem writeReg_paused (i : RegIdx) (v : Word) (s : State) : (writeReg i v s).paused = s.paused := by simp [writeReg]
@[simp] theorem writeReg_ioRequest (i : RegIdx) (v : Word) (s : State) : (writeReg i v s).ioRequest = s.ioRequest := by simp [writeReg]
@[simp] theorem writeReg_outbox (i : RegIdx) (v : Word) (s : State) : (writeReg i v s).outbox = s.outbox := by simp [writeReg]
@[simp] theorem writeReg_hostInputs (i : RegIdx) (v : Word) (s : State) : (writeReg i v s).hostInputs = s.hostInputs := by simp [writeReg]
@[simp] theorem writeReg_ioDraws (i : RegIdx) (v : Word) (s : State) : (writeReg i v s).ioDraws = s.ioDraws := by simp [writeReg]

/-! ### latchCstr -/

@[simp] theorem latchCstr_gpr (v : Word) (s : State) : (latchCstr v s).gpr = s.gpr := by simp [latchCstr]
@[simp] theorem latchCstr_sp (v : Word) (s : State) : (latchCstr v s).sp = s.sp := by simp [latchCstr]
@[simp] theorem latchCstr_pc (v : Word) (s : State) : (latchCstr v s).pc = s.pc := by simp [latchCstr]
@[simp] theorem latchCstr_cstr (v : Word) (s : State) : (latchCstr v s).cstr = committedCstr s := by simp [latchCstr]
@[simp] theorem latchCstr_esr (v : Word) (s : State) : (latchCstr v s).esr = s.esr := by simp [latchCstr]
@[simp] theorem latchCstr_cstrLatch (v : Word) (s : State) : (latchCstr v s).cstrLatch = setBit (v.setWidth 16) Config.pendingPos true := rfl
@[simp] theorem latchCstr_status (v : Word) (s : State) : (latchCstr v s).status = s.status := by simp [latchCstr]
@[simp] theorem latchCstr_cyc (v : Word) (s : State) : (latchCstr v s).cyc = s.cyc := by simp [latchCstr]
@[simp] theorem latchCstr_fatalFlag (v : Word) (s : State) : (latchCstr v s).fatalFlag = s.fatalFlag := by simp [latchCstr]
@[simp] theorem latchCstr_mem (v : Word) (s : State) : (latchCstr v s).mem = s.mem := by simp [latchCstr]
@[simp] theorem latchCstr_paused (v : Word) (s : State) : (latchCstr v s).paused = s.paused := by simp [latchCstr]
@[simp] theorem latchCstr_ioRequest (v : Word) (s : State) : (latchCstr v s).ioRequest = s.ioRequest := by simp [latchCstr]
@[simp] theorem latchCstr_outbox (v : Word) (s : State) : (latchCstr v s).outbox = s.outbox := by simp [latchCstr]
@[simp] theorem latchCstr_hostInputs (v : Word) (s : State) : (latchCstr v s).hostInputs = s.hostInputs := by simp [latchCstr]
@[simp] theorem latchCstr_ioDraws (v : Word) (s : State) : (latchCstr v s).ioDraws = s.ioDraws := by simp [latchCstr]

/-! ### beginCycle -/

@[simp] theorem beginCycle_gpr (s : State) : (beginCycle s).gpr = s.gpr := by unfold beginCycle; split <;> rfl
@[simp] theorem beginCycle_sp (s : State) : (beginCycle s).sp = s.sp := by unfold beginCycle; split <;> rfl
@[simp] theorem beginCycle_pc (s : State) : (beginCycle s).pc = s.pc := by unfold beginCycle; split <;> rfl
@[simp] theorem beginCycle_cstr (s : State) : (beginCycle s).cstr = s.cstr := by unfold beginCycle; split <;> rfl
@[simp] theorem beginCycle_esr (s : State) : (beginCycle s).esr = s.esr := by unfold beginCycle; split <;> rfl
@[simp] theorem beginCycle_cstrLatch (s : State) : (beginCycle s).cstrLatch = s.cstrLatch := by unfold beginCycle; split <;> rfl
@[simp] theorem beginCycle_status (s : State) : (beginCycle s).status = if s.status = .exception then .running else s.status := by unfold beginCycle; split <;> simp_all
@[simp] theorem beginCycle_cyc (s : State) : (beginCycle s).cyc = s.cyc := by unfold beginCycle; split <;> rfl
@[simp] theorem beginCycle_fatalFlag (s : State) : (beginCycle s).fatalFlag = s.fatalFlag := by unfold beginCycle; split <;> rfl
@[simp] theorem beginCycle_mem (s : State) : (beginCycle s).mem = s.mem := by unfold beginCycle; split <;> rfl
@[simp] theorem beginCycle_paused (s : State) : (beginCycle s).paused = s.paused := by unfold beginCycle; split <;> rfl
@[simp] theorem beginCycle_ioRequest (s : State) : (beginCycle s).ioRequest = s.ioRequest := by unfold beginCycle; split <;> rfl
@[simp] theorem beginCycle_outbox (s : State) : (beginCycle s).outbox = s.outbox := by unfold beginCycle; split <;> rfl
@[simp] theorem beginCycle_hostInputs (s : State) : (beginCycle s).hostInputs = s.hostInputs := by unfold beginCycle; split <;> rfl
@[simp] theorem beginCycle_ioDraws (s : State) : (beginCycle s).ioDraws = s.ioDraws := by unfold beginCycle; split <;> rfl

/-! ### endOfCycle -/

@[simp] theorem endOfCycle_gpr (s : State) : (endOfCycle s).gpr = s.gpr := by unfold endOfCycle; split <;> rfl
@[simp] theorem endOfCycle_sp (s : State) : (endOfCycle s).sp = s.sp := by unfold endOfCycle; split <;> rfl
@[simp] theorem endOfCycle_pc (s : State) : (endOfCycle s).pc = s.pc := by unfold endOfCycle; split <;> rfl
@[simp] theorem endOfCycle_cstr (s : State) : (endOfCycle s).cstr = s.cstr := by unfold endOfCycle; split <;> rfl
@[simp] theorem endOfCycle_esr (s : State) : (endOfCycle s).esr = s.esr := by unfold endOfCycle; split <;> rfl
@[simp] theorem endOfCycle_cstrLatch (s : State) : (endOfCycle s).cstrLatch = s.cstrLatch := by unfold endOfCycle; split <;> rfl
@[simp] theorem endOfCycle_status (s : State) : (endOfCycle s).status = if s.fatalFlag = false ∧ safetyExpired s = true then .halted else s.status := by unfold endOfCycle; split <;> simp_all
@[simp] theorem endOfCycle_cyc (s : State) : (endOfCycle s).cyc = if s.fatalFlag then s.cyc else s.cyc + 1 := by unfold endOfCycle; split <;> rfl
@[simp] theorem endOfCycle_fatalFlag (s : State) : (endOfCycle s).fatalFlag = (s.fatalFlag || safetyExpired s && CoreCall.isFatal (haltVerdict s)) := by unfold endOfCycle; split <;> simp_all
@[simp] theorem endOfCycle_mem (s : State) : (endOfCycle s).mem = s.mem := by unfold endOfCycle; split <;> rfl
@[simp] theorem endOfCycle_paused (s : State) : (endOfCycle s).paused = s.paused := by unfold endOfCycle; split <;> rfl
@[simp] theorem endOfCycle_ioRequest (s : State) : (endOfCycle s).ioRequest = s.ioRequest := by unfold endOfCycle; split <;> rfl
@[simp] theorem endOfCycle_outbox (s : State) : (endOfCycle s).outbox = if s.fatalFlag = false ∧ safetyExpired s = true then haltVerdict s :: s.outbox else s.outbox := by unfold endOfCycle; split <;> simp_all
@[simp] theorem endOfCycle_hostInputs (s : State) : (endOfCycle s).hostInputs = s.hostInputs := by unfold endOfCycle; split <;> rfl
@[simp] theorem endOfCycle_ioDraws (s : State) : (endOfCycle s).ioDraws = s.ioDraws := by unfold endOfCycle; split <;> rfl

/-! ### hostResume -/

@[simp] theorem hostResume_gpr (entry : Word) (s : State) : (hostResume entry s).gpr = s.gpr := by unfold hostResume; split <;> rfl
@[simp] theorem hostResume_sp (entry : Word) (s : State) : (hostResume entry s).sp = s.sp := by unfold hostResume; split <;> rfl
@[simp] theorem hostResume_cstr (entry : Word) (s : State) : (hostResume entry s).cstr = s.cstr := by unfold hostResume; split <;> rfl
@[simp] theorem hostResume_esr (entry : Word) (s : State) : (hostResume entry s).esr = s.esr := by unfold hostResume; split <;> rfl
@[simp] theorem hostResume_cstrLatch (entry : Word) (s : State) : (hostResume entry s).cstrLatch = s.cstrLatch := by unfold hostResume; split <;> rfl
@[simp] theorem hostResume_fatalFlag (entry : Word) (s : State) : (hostResume entry s).fatalFlag = s.fatalFlag := by unfold hostResume; split <;> rfl
@[simp] theorem hostResume_mem (entry : Word) (s : State) : (hostResume entry s).mem = s.mem := by unfold hostResume; split <;> rfl
@[simp] theorem hostResume_paused (entry : Word) (s : State) : (hostResume entry s).paused = s.paused := by unfold hostResume; split <;> rfl
@[simp] theorem hostResume_ioRequest (entry : Word) (s : State) : (hostResume entry s).ioRequest = s.ioRequest := by unfold hostResume; split <;> rfl
@[simp] theorem hostResume_outbox (entry : Word) (s : State) : (hostResume entry s).outbox = s.outbox := by unfold hostResume; split <;> rfl
@[simp] theorem hostResume_hostInputs (entry : Word) (s : State) : (hostResume entry s).hostInputs = s.hostInputs := by unfold hostResume; split <;> rfl
@[simp] theorem hostResume_ioDraws (entry : Word) (s : State) : (hostResume entry s).ioDraws = s.ioDraws := by unfold hostResume; split <;> rfl

/-! ### hostAcknowledge -/

@[simp] theorem hostAcknowledge_gpr (kind : Nat) (s : State) : (hostAcknowledge kind s).gpr = s.gpr := by unfold hostAcknowledge; split <;> rfl
@[simp] theorem hostAcknowledge_sp (kind : Nat) (s : State) : (hostAcknowledge kind s).sp = s.sp := by unfold hostAcknowledge; split <;> rfl
@[simp] theorem hostAcknowledge_pc (kind : Nat) (s : State) : (hostAcknowledge kind s).pc = s.pc := by unfold hostAcknowledge; split <;> rfl
@[simp] theorem hostAcknowledge_cstr (kind : Nat) (s : State) : (hostAcknowledge kind s).cstr = s.cstr := by unfold hostAcknowledge; split <;> rfl
@[simp] theorem hostAcknowledge_esr (kind : Nat) (s : State) : (hostAcknowledge kind s).esr = s.esr := by unfold hostAcknowledge; split <;> rfl
@[simp] theorem hostAcknowledge_cstrLatch (kind : Nat) (s : State) : (hostAcknowledge kind s).cstrLatch = s.cstrLatch := by unfold hostAcknowledge; split <;> rfl
@[simp] theorem hostAcknowledge_fatalFlag (kind : Nat) (s : State) : (hostAcknowledge kind s).fatalFlag = s.fatalFlag := by unfold hostAcknowledge; split <;> rfl
@[simp] theorem hostAcknowledge_mem (kind : Nat) (s : State) : (hostAcknowledge kind s).mem = s.mem := by unfold hostAcknowledge; split <;> rfl
@[simp] theorem hostAcknowledge_paused (kind : Nat) (s : State) : (hostAcknowledge kind s).paused = s.paused := by unfold hostAcknowledge; split <;> rfl
@[simp] theorem hostAcknowledge_ioRequest (kind : Nat) (s : State) : (hostAcknowledge kind s).ioRequest = s.ioRequest := by unfold hostAcknowledge; split <;> rfl
@[simp] theorem hostAcknowledge_outbox (kind : Nat) (s : State) : (hostAcknowledge kind s).outbox = s.outbox := by unfold hostAcknowledge; split <;> rfl
@[simp] theorem hostAcknowledge_hostInputs (kind : Nat) (s : State) : (hostAcknowledge kind s).hostInputs = s.hostInputs := by unfold hostAcknowledge; split <;> rfl
@[simp] theorem hostAcknowledge_ioDraws (kind : Nat) (s : State) : (hostAcknowledge kind s).ioDraws = s.ioDraws := by unfold hostAcknowledge; split <;> rfl

end Sys2Proof.Machine
end

