-- ==== Sys2Proof/Laws/Cstr.lean ====
section
/-! SUPPORT. The laws of CSTR's bits: reading a bit back after a write, the commit check, the flag write. -/

namespace Sys2Proof.Machine

/-- A bit of a status word after one bit was set (R25). -/
theorem getLsbD_setBit (x : Half) (k : Nat) (v : Bool) (j : Nat) (hk : k < 16) :
    (setBit x k v).getLsbD j = if j = k then v else x.getLsbD j := by
  unfold setBit
  by_cases hj : j = k
  · subst hj
    cases v <;> simp [hk]
  · have : k ≠ j := fun h => hj h.symm
    cases v
    · by_cases h16 : j < 16
      · simp [hj, h16]
      · simp [hj, BitVec.getLsbD_of_ge x j (by omega)]
    · simp [hj, this]

theorem cstrPos_lt (f : CstrBit) : Config.cstrPos f < 16 := by cases f <;> decide

theorem cstrPos_injective {f g : CstrBit} (h : Config.cstrPos f = Config.cstrPos g) : f = g := by
  cases f <;> cases g <;> first | rfl | (exact absurd h (by decide))

theorem getLsbD_cstrSet (x : Half) (f : CstrBit) (v : Bool) (j : Nat) :
    (cstrSet x f v).getLsbD j = if j = Config.cstrPos f then v else x.getLsbD j :=
  getLsbD_setBit x _ v j (cstrPos_lt f)

/-- A field of CSTR read after a field was written. -/
theorem cstrGet_cstrSet (x : Half) (f g : CstrBit) (v : Bool) :
    cstrGet (cstrSet x f v) g = if g = f then v else cstrGet x g := by
  rw [cstrGet, getLsbD_cstrSet]
  by_cases h : g = f
  · subst h; simp
  · have : Config.cstrPos g ≠ Config.cstrPos f := fun e => h (cstrPos_injective e)
    simp [h, this, cstrGet]

/-- The bits of a status word after the flag write (R160): the four flags, every other bit kept. -/
theorem putFlags_replaced (x : Half) (f : Flags) : FlagsReplaced f.c f.o f.n f.z x (putFlags x f) := by
  refine ⟨?_, ?_, ?_, ?_, ?_⟩
  iterate 4 simp only [putFlags, getLsbD_cstrSet, Config.cstrPos]; rfl
  intro k hk
  have h0 : k ≠ 0 := by omega
  have h1 : k ≠ 1 := by omega
  have h2 : k ≠ 2 := by omega
  have h3 : k ≠ 3 := by omega
  simp [putFlags, getLsbD_cstrSet, Config.cstrPos, h0, h1, h2, h3]

@[simp] theorem flagsOf_putFlags (x : Half) (f : Flags) : flagsOf (putFlags x f) = f := by
  cases f
  simp [flagsOf, putFlags, cstrGet_cstrSet]

@[simp] theorem privOf_putFlags (x : Half) (f : Flags) : privOf (putFlags x f) = privOf x := by
  simp [privOf, putFlags, cstrGet_cstrSet]

@[simp] theorem privOf_cstrSet_priv (x : Half) (v : Bool) :
    privOf (cstrSet x .priv v) = if v then .kernel else .user := by
  simp [privOf, cstrGet_cstrSet]

@[simp] theorem privOf_cstrSet_ie (x : Half) (v : Bool) : privOf (cstrSet x .ie v) = privOf x := by
  simp [privOf, cstrGet_cstrSet]

/-- Setting PRIV is or-ing its mask (R25, R280). -/
theorem cstrSet_priv_true (x : Half) : cstrSet x .priv true = x ||| 0x0020#16 := rfl

/-- The privilege after the commit check. -/
@[simp] theorem regFileAccess_priv (s : State) : (regFileAccess s).priv = committedPriv s := by
  unfold State.priv privOf cstrGet
  rw [regFileAccess_cstr]
  rfl

/-- A state with nothing pending is left alone by the commit check (R40). -/
theorem regFileAccess_of_not_pending {s : State} (h : s.cstrLatch.getLsbD 15 = false) : regFileAccess s = s := by
  unfold regFileAccess Config.pendingPos
  rw [h]
  rfl

/-- The commit check leaves nothing pending (R40). -/
theorem committedLatch_not_pending (s : State) : (committedLatch s).getLsbD 15 = false := by
  unfold committedLatch
  cases h : s.cstrLatch.getLsbD 15
  · exact h
  · simp

/-- A second commit check in the same cycle does nothing (R40). -/
@[simp] theorem regFileAccess_idem (s : State) : regFileAccess (regFileAccess s) = regFileAccess s := by
  apply regFileAccess_of_not_pending
  rw [regFileAccess_cstrLatch]
  exact committedLatch_not_pending s

@[simp] theorem committedCstr_regFileAccess (s : State) : committedCstr (regFileAccess s) = committedCstr s := by
  rw [← regFileAccess_cstr, regFileAccess_idem, regFileAccess_cstr]

@[simp] theorem committedLatch_regFileAccess (s : State) : committedLatch (regFileAccess s) = committedLatch s := by
  rw [← regFileAccess_cstrLatch, regFileAccess_idem, regFileAccess_cstrLatch]

/-- After a commit check, the register write's own does nothing (R22, R40). -/
@[simp] theorem writeReg_regFileAccess (i : RegIdx) (v : Word) (s : State) :
    writeReg i v (regFileAccess s) = writeReg i v s := by
  rw [writeReg, regFileAccess_idem, writeReg]

end Sys2Proof.Machine
end

