-- ==== Sys2Proof/Laws/Encoding.lean ====
section
/-! SUPPORT. The decode tables invert the encoding parameters (R111), and every field of every encoded format read back
(R93 to R99). -/

namespace Sys2Proof

/-! ### The encoding parameters -/

/-- The mode bit of a form's opcode byte is the form's (R92). -/
theorem withMode_getLsbD_modeBit (f : Form) (op8 : BitVec 8) :
    (withMode f op8).getLsbD (Config.modeBit - 24) = Config.modeValue f := by
  cases f <;> simp [withMode, Config.modeValue, Config.modeBit]

/-- The two forms of an opcode byte differ in no bit but the mode bit (R92, D1). -/
theorem withMode_getLsbD_other (f : Form) (op8 : BitVec 8) (k : Nat) (h : k ≠ Config.modeBit - 24) :
    (withMode f op8).getLsbD k = op8.getLsbD k := by
  have h' : ¬ Config.modeBit - 24 = k := fun e => h e.symm
  unfold withMode
  split
  · simp [BitVec.getLsbD_twoPow, h']
  · by_cases hk : k < 8
    · simpa [hk] using fun _ => h
    · simp [BitVec.getLsbD_of_ge op8 k (by omega)]

/-- The top-level table sends the byte of every symbolic opcode to that opcode (R104, R111). -/
theorem opcodeTable_lookup_opc (y : Sym) : opcodeTable.lookup (Config.opc y) = some y := by
  cases y <;> rfl

/-- The sub-opcode table sends the number of every system sub-opcode to it (R105, R111). -/
theorem subOpcodeTable_lookup_subOpc (y : SysSym) : subOpcodeTable.lookup (Config.subOpc y) = some y := by
  cases y <;> rfl

/-- The condition table sends the number of every condition to it (R103). -/
theorem condTable_lookup_condNumber (c : Cond) : condTable.lookup (Config.condNumber c) = some c := by
  cases c <;> rfl

/-- A byte found in the top-level table is the byte of the opcode found (R104, R111). -/
theorem opcodeTable_lookup_eq_some (op8 : BitVec 8) (y : Sym) :
    opcodeTable.lookup op8 = some y ↔ op8 = Config.opc y := by
  refine ⟨fun h => ?_, fun h => h ▸ opcodeTable_lookup_opc y⟩
  have hall : ∀ b : BitVec 8, (opcodeTable.lookup b).all (fun x => b == Config.opc x) = true := by decide +kernel
  simpa [h] using hall op8

/-- A number found in the sub-opcode table is the number of the sub-opcode found (R105, R111). -/
theorem subOpcodeTable_lookup_eq_some (sub : BitVec 5) (y : SysSym) :
    subOpcodeTable.lookup sub = some y ↔ sub = Config.subOpc y := by
  refine ⟨fun h => ?_, fun h => h ▸ subOpcodeTable_lookup_subOpc y⟩
  have hall : ∀ b : BitVec 5, (subOpcodeTable.lookup b).all (fun x => b == Config.subOpc x) = true := by decide +kernel
  simpa [h] using hall sub

/-- A number found in the condition table is the number of the condition found (R103). -/
theorem condTable_lookup_eq_some (n : BitVec 5) (c : Cond) : condTable.lookup n = some c ↔ n = Config.condNumber c := by
  refine ⟨fun h => ?_, fun h => h ▸ condTable_lookup_condNumber c⟩
  have hall : ∀ b : BitVec 5, (condTable.lookup b).all (fun x => b == Config.condNumber x) = true := by decide +kernel
  simpa [h] using hall n

/-- The low part of a concatenation, from bit `k` on, when the part ends inside the low word. -/
theorem extract_append_low {m n : Nat} (x : BitVec m) (y : BitVec n) (k len : Nat) (h : k + len ≤ n) :
    (x ++ y).extractLsb' k len = y.extractLsb' k len := by
  apply BitVec.eq_of_getLsbD_eq
  intro i hi
  have : k + i < n := by omega
  simp [BitVec.getLsbD_append, hi, this]

/-- The high part of a concatenation. -/
theorem extract_append_high {m n : Nat} (x : BitVec m) (y : BitVec n) (k len : Nat) (h : n ≤ k) :
    (x ++ y).extractLsb' k len = x.extractLsb' (k - n) len := by
  apply BitVec.eq_of_getLsbD_eq
  intro i hi
  have h1 : ¬k + i < n := by omega
  have h2 : k + i - n = k - n + i := by omega
  simp [BitVec.getLsbD_append, hi, h1, h2]

/-- A whole word is its own field. -/
theorem extract_all {n : Nat} (x : BitVec n) : x.extractLsb' 0 n = x := by
  apply BitVec.eq_of_getLsbD_eq
  intro i hi
  simp [hi]

/-! ### encodeI -/

@[simp] theorem fieldOp8_encodeI (op8 : BitVec 8) (imm14 : BitVec 14) (rs rd : RegIdx) :
    fieldOp8 (encodeI op8 imm14 rs rd) = op8 :=
  (extract_append_high _ _ _ _ (by decide)).trans ((extract_append_high _ _ _ _ (by decide)).trans ((extract_append_high _ _ _ _ (by decide)).trans (extract_all _)))
@[simp] theorem fieldRd_encodeI (op8 : BitVec 8) (imm14 : BitVec 14) (rs rd : RegIdx) :
    fieldRd (encodeI op8 imm14 rs rd) = rd :=
  (extract_append_low _ _ _ _ (by decide)).trans (extract_all _)
@[simp] theorem fieldMid_encodeI (op8 : BitVec 8) (imm14 : BitVec 14) (rs rd : RegIdx) :
    fieldMid (encodeI op8 imm14 rs rd) = rs :=
  (extract_append_high _ _ _ _ (by decide)).trans ((extract_append_low _ _ _ _ (by decide)).trans (extract_all _))
@[simp] theorem fieldImm14_encodeI (op8 : BitVec 8) (imm14 : BitVec 14) (rs rd : RegIdx) :
    fieldImm14 (encodeI op8 imm14 rs rd) = imm14 :=
  (extract_append_high _ _ _ _ (by decide)).trans ((extract_append_high _ _ _ _ (by decide)).trans ((extract_append_low _ _ _ _ (by decide)).trans (extract_all _)))

/-! ### encodeR -/

@[simp] theorem fieldOp8_encodeR (op8 : BitVec 8) (rs1 rs2 rd : RegIdx) :
    fieldOp8 (encodeR op8 rs1 rs2 rd) = op8 :=
  (extract_append_high _ _ _ _ (by decide)).trans ((extract_append_high _ _ _ _ (by decide)).trans ((extract_append_high _ _ _ _ (by decide)).trans ((extract_append_high _ _ _ _ (by decide)).trans (extract_all _))))
@[simp] theorem fieldRd_encodeR (op8 : BitVec 8) (rs1 rs2 rd : RegIdx) :
    fieldRd (encodeR op8 rs1 rs2 rd) = rd :=
  (extract_append_low _ _ _ _ (by decide)).trans (extract_all _)
@[simp] theorem fieldMid_encodeR (op8 : BitVec 8) (rs1 rs2 rd : RegIdx) :
    fieldMid (encodeR op8 rs1 rs2 rd) = rs2 :=
  (extract_append_high _ _ _ _ (by decide)).trans ((extract_append_low _ _ _ _ (by decide)).trans (extract_all _))
@[simp] theorem fieldRs1_encodeR (op8 : BitVec 8) (rs1 rs2 rd : RegIdx) :
    fieldRs1 (encodeR op8 rs1 rs2 rd) = rs1 :=
  (extract_append_high _ _ _ _ (by decide)).trans ((extract_append_high _ _ _ _ (by decide)).trans ((extract_append_low _ _ _ _ (by decide)).trans (extract_all _)))
@[simp] theorem fieldSimm9_encodeR (op8 : BitVec 8) (rs1 rs2 rd : RegIdx) :
    fieldSimm9 (encodeR op8 rs1 rs2 rd) = 0#9 :=
  (extract_append_high _ _ _ _ (by decide)).trans ((extract_append_high _ _ _ _ (by decide)).trans ((extract_append_high _ _ _ _ (by decide)).trans ((extract_append_low _ _ _ _ (by decide)).trans (extract_all _))))

/-! ### encodeBi -/

@[simp] theorem fieldOp8_encodeBi (op8 : BitVec 8) (off24 : BitVec 24) :
    fieldOp8 (encodeBi op8 off24) = op8 :=
  (extract_append_high _ _ _ _ (by decide)).trans (extract_all _)
@[simp] theorem fieldOff24_encodeBi (op8 : BitVec 8) (off24 : BitVec 24) :
    fieldOff24 (encodeBi op8 off24) = off24 :=
  (extract_append_low _ _ _ _ (by decide)).trans (extract_all _)

/-! ### encodeBu -/

@[simp] theorem fieldOp8_encodeBu (op8 : BitVec 8) (rs : RegIdx) :
    fieldOp8 (encodeBu op8 rs) = op8 :=
  (extract_append_high _ _ _ _ (by decide)).trans ((extract_append_high _ _ _ _ (by decide)).trans ((extract_append_high _ _ _ _ (by decide)).trans (extract_all _)))
@[simp] theorem fieldRs1_encodeBu (op8 : BitVec 8) (rs : RegIdx) :
    fieldRs1 (encodeBu op8 rs) = rs :=
  (extract_append_high _ _ _ _ (by decide)).trans ((extract_append_low _ _ _ _ (by decide)).trans (extract_all _))
@[simp] theorem fieldSimm9_encodeBu (op8 : BitVec 8) (rs : RegIdx) :
    fieldSimm9 (encodeBu op8 rs) = 0#9 :=
  (extract_append_high _ _ _ _ (by decide)).trans ((extract_append_high _ _ _ _ (by decide)).trans ((extract_append_low _ _ _ _ (by decide)).trans (extract_all _)))

/-! ### encodeBc -/

@[simp] theorem fieldOp8_encodeBc (c : Cond) (off19 : BitVec 19) :
    fieldOp8 (encodeBc c off19) = Config.opc .bcc :=
  (extract_append_high _ _ _ _ (by decide)).trans ((extract_append_high _ _ _ _ (by decide)).trans (extract_all _))
@[simp] theorem fieldRd_encodeBc (c : Cond) (off19 : BitVec 19) :
    fieldRd (encodeBc c off19) = Config.condNumber c :=
  (extract_append_low _ _ _ _ (by decide)).trans (extract_all _)
@[simp] theorem fieldOff19_encodeBc (c : Cond) (off19 : BitVec 19) :
    fieldOff19 (encodeBc c off19) = off19 :=
  (extract_append_high _ _ _ _ (by decide)).trans ((extract_append_low _ _ _ _ (by decide)).trans (extract_all _))

/-! ### encodeS -/

@[simp] theorem fieldOp8_encodeS (y : SysSym) (rs rd : RegIdx) :
    fieldOp8 (encodeS y rs rd) = Config.opc .sys :=
  (extract_append_high _ _ _ _ (by decide)).trans ((extract_append_high _ _ _ _ (by decide)).trans ((extract_append_high _ _ _ _ (by decide)).trans ((extract_append_high _ _ _ _ (by decide)).trans ((extract_append_high _ _ _ _ (by decide)).trans (extract_all _)))))
@[simp] theorem fieldSub_encodeS (y : SysSym) (rs rd : RegIdx) :
    fieldSub (encodeS y rs rd) = Config.subOpc y :=
  (extract_append_high _ _ _ _ (by decide)).trans ((extract_append_high _ _ _ _ (by decide)).trans ((extract_append_high _ _ _ _ (by decide)).trans ((extract_append_high _ _ _ _ (by decide)).trans ((extract_append_low _ _ _ _ (by decide)).trans (extract_all _)))))
@[simp] theorem fieldRd_encodeS (y : SysSym) (rs rd : RegIdx) :
    fieldRd (encodeS y rs rd) = rd :=
  (extract_append_low _ _ _ _ (by decide)).trans (extract_all _)
@[simp] theorem fieldMid_encodeS (y : SysSym) (rs rd : RegIdx) :
    fieldMid (encodeS y rs rd) = 0#5 :=
  (extract_append_high _ _ _ _ (by decide)).trans ((extract_append_low _ _ _ _ (by decide)).trans (extract_all _))
@[simp] theorem fieldRs1_encodeS (y : SysSym) (rs rd : RegIdx) :
    fieldRs1 (encodeS y rs rd) = rs :=
  (extract_append_high _ _ _ _ (by decide)).trans ((extract_append_high _ _ _ _ (by decide)).trans ((extract_append_low _ _ _ _ (by decide)).trans (extract_all _)))

/-! ### encodeM_imm -/

@[simp] theorem fieldOp8_encodeM_imm (op8 : BitVec 8) (simm9 : BitVec 9) (rb rd : RegIdx) :
    fieldOp8 (encodeM op8 (.imm simm9) rb rd) = op8 :=
  (extract_append_high _ _ _ _ (by decide)).trans ((extract_append_high _ _ _ _ (by decide)).trans ((extract_append_high _ _ _ _ (by decide)).trans ((extract_append_high _ _ _ _ (by decide)).trans (extract_all _))))
@[simp] theorem fieldRd_encodeM_imm (op8 : BitVec 8) (simm9 : BitVec 9) (rb rd : RegIdx) :
    fieldRd (encodeM op8 (.imm simm9) rb rd) = rd :=
  (extract_append_low _ _ _ _ (by decide)).trans (extract_all _)
@[simp] theorem fieldMid_encodeM_imm (op8 : BitVec 8) (simm9 : BitVec 9) (rb rd : RegIdx) :
    fieldMid (encodeM op8 (.imm simm9) rb rd) = 30#5 :=
  (extract_append_high _ _ _ _ (by decide)).trans ((extract_append_low _ _ _ _ (by decide)).trans (extract_all _))
@[simp] theorem fieldRs1_encodeM_imm (op8 : BitVec 8) (simm9 : BitVec 9) (rb rd : RegIdx) :
    fieldRs1 (encodeM op8 (.imm simm9) rb rd) = rb :=
  (extract_append_high _ _ _ _ (by decide)).trans ((extract_append_high _ _ _ _ (by decide)).trans ((extract_append_low _ _ _ _ (by decide)).trans (extract_all _)))
@[simp] theorem fieldSimm9_encodeM_imm (op8 : BitVec 8) (simm9 : BitVec 9) (rb rd : RegIdx) :
    fieldSimm9 (encodeM op8 (.imm simm9) rb rd) = simm9 :=
  (extract_append_high _ _ _ _ (by decide)).trans ((extract_append_high _ _ _ _ (by decide)).trans ((extract_append_high _ _ _ _ (by decide)).trans ((extract_append_low _ _ _ _ (by decide)).trans (extract_all _))))

/-! ### encodeM_index -/

@[simp] theorem fieldOp8_encodeM_index (op8 : BitVec 8) (ri rb rd : RegIdx) :
    fieldOp8 (encodeM op8 (.index ri) rb rd) = op8 :=
  (extract_append_high _ _ _ _ (by decide)).trans ((extract_append_high _ _ _ _ (by decide)).trans ((extract_append_high _ _ _ _ (by decide)).trans ((extract_append_high _ _ _ _ (by decide)).trans (extract_all _))))
@[simp] theorem fieldRd_encodeM_index (op8 : BitVec 8) (ri rb rd : RegIdx) :
    fieldRd (encodeM op8 (.index ri) rb rd) = rd :=
  (extract_append_low _ _ _ _ (by decide)).trans (extract_all _)
@[simp] theorem fieldMid_encodeM_index (op8 : BitVec 8) (ri rb rd : RegIdx) :
    fieldMid (encodeM op8 (.index ri) rb rd) = ri :=
  (extract_append_high _ _ _ _ (by decide)).trans ((extract_append_low _ _ _ _ (by decide)).trans (extract_all _))
@[simp] theorem fieldRs1_encodeM_index (op8 : BitVec 8) (ri rb rd : RegIdx) :
    fieldRs1 (encodeM op8 (.index ri) rb rd) = rb :=
  (extract_append_high _ _ _ _ (by decide)).trans ((extract_append_high _ _ _ _ (by decide)).trans ((extract_append_low _ _ _ _ (by decide)).trans (extract_all _)))
@[simp] theorem fieldSimm9_encodeM_index (op8 : BitVec 8) (ri rb rd : RegIdx) :
    fieldSimm9 (encodeM op8 (.index ri) rb rd) = 0#9 :=
  (extract_append_high _ _ _ _ (by decide)).trans ((extract_append_high _ _ _ _ (by decide)).trans ((extract_append_high _ _ _ _ (by decide)).trans ((extract_append_low _ _ _ _ (by decide)).trans (extract_all _))))

end Sys2Proof
end

