-- ==== Sys2Proof/Laws/Memory.lean ====
section
/-! SUPPORT. The laws of memory: read after write, and that every memory operation keeps the canonical form. -/

namespace Sys2Proof.Machine

/-! ### One byte -/

theorem Memory.wfFrom_mono {lo lo' : Nat} {m : Memory} (hle : lo' ≤ lo) (h : Memory.wfFrom lo m = true) :
    Memory.wfFrom lo' m = true := by
  cases m with
  | nil => rfl
  | cons c m =>
    obtain ⟨b, v⟩ := c
    simp only [Memory.wfFrom, Bool.and_eq_true, decide_eq_true_eq] at h ⊢
    exact ⟨⟨by omega, h.1.2⟩, h.2⟩

theorem Memory.get_below {lo a : Nat} {m : Memory} (h : Memory.wfFrom lo m = true) (ha : a < lo) :
    Memory.get m a = Config.unwrittenByte := by
  induction m generalizing lo with
  | nil => rfl
  | cons c m ih =>
    obtain ⟨b, v⟩ := c
    simp only [Memory.wfFrom, Bool.and_eq_true, decide_eq_true_eq] at h
    have hb : a ≠ b := by omega
    simp only [Memory.get, if_neg hb]
    exact ih h.2 (by omega)

theorem Memory.wfFrom_set {lo a : Nat} {m : Memory} (v : Byte) (h : Memory.wfFrom lo m = true) (ha : lo ≤ a) :
    Memory.wfFrom lo (Memory.set m a v) = true := by
  induction m generalizing lo with
  | nil =>
    unfold Memory.set
    split <;> simp_all [Memory.wfFrom]
  | cons c m ih =>
    obtain ⟨b, w⟩ := c
    simp only [Memory.wfFrom, Bool.and_eq_true, decide_eq_true_eq] at h
    unfold Memory.set
    split
    · split
      · simp_all [Memory.wfFrom]
      · simp_all [Memory.wfFrom]
    · split
      · split
        · exact Memory.wfFrom_mono (by omega) h.2
        · simp_all [Memory.wfFrom]
      · have := ih h.2 (by omega)
        simp_all [Memory.wfFrom]

/-- Writing a byte keeps the canonical form. -/
theorem Memory.wf_set {m : Memory} (a : Nat) (v : Byte) (h : Memory.wf m = true) : Memory.wf (Memory.set m a v) = true :=
  Memory.wfFrom_set v h (Nat.zero_le a)

theorem Memory.get_set_from {lo : Nat} {m : Memory} (h : Memory.wfFrom lo m = true) (a b : Nat) (v : Byte) :
    Memory.get (Memory.set m a v) b = if b = a then v else Memory.get m b := by
  induction m generalizing lo with
  | nil =>
    unfold Memory.set
    split <;> simp_all [Memory.get]
  | cons c m ih =>
    obtain ⟨d, w⟩ := c
    simp only [Memory.wfFrom, Bool.and_eq_true, decide_eq_true_eq] at h
    have ih := ih h.2
    by_cases h1 : a < d
    · by_cases hv : v = Config.unwrittenByte
      · by_cases hba : b = a
        · subst hba
          have : b ≠ d := by omega
          simp [Memory.set, h1, hv, Memory.get, this, Memory.get_below h.2 (by omega : b < d + 1)]
        · simp [Memory.set, h1, hv, hba]
      · by_cases hba : b = a <;> simp [Memory.set, h1, hv, hba, Memory.get]
    · by_cases h2 : a = d
      · subst h2
        by_cases hv : v = Config.unwrittenByte
        · by_cases hba : b = a
          · subst hba
            simp [Memory.set, hv, Memory.get_below h.2 (by omega : b < b + 1)]
          · simp [Memory.set, hv, hba, Memory.get]
        · by_cases hba : b = a <;> simp [Memory.set, hv, hba, Memory.get]
      · by_cases hbd : b = d
        · have : b ≠ a := by omega
          simp [Memory.set, h1, h2, hbd, Memory.get]; omega
        · simp [Memory.set, h1, h2, hbd, Memory.get, ih]

/-- A byte read after a byte write: the value at the address written, every other address as before. -/
theorem Memory.get_set {m : Memory} (h : Memory.wf m = true) (a b : Nat) (v : Byte) :
    Memory.get (Memory.set m a v) b = if b = a then v else Memory.get m b :=
  Memory.get_set_from h a b v

/-- The memory after reset is in the canonical form. -/
theorem reset_memory_wf : Memory.wf State.reset.mem = true := rfl

/-! ### Several bytes, little-endian (R51) -/

/-- A multi-byte write keeps the canonical form. -/
theorem Memory.wf_writeLE {m : Memory} (a n v : Nat) (h : Memory.wf m = true) :
    Memory.wf (Memory.writeLE m a n v) = true := by
  induction n generalizing m a v with
  | zero => exact h
  | succ n ih => exact ih _ _ (Memory.wf_set a _ h)

/-- The byte at any address after a multi-byte write (R51). -/
theorem Memory.get_writeLE {m : Memory} (h : Memory.wf m = true) (a n v b : Nat) :
    Memory.get (Memory.writeLE m a n v) b =
      if a ≤ b ∧ b < a + n then BitVec.ofNat 8 (v / 256 ^ (b - a)) else Memory.get m b := by
  induction n generalizing m a v with
  | zero =>
    have : ¬(a ≤ b ∧ b < a + 0) := by omega
    rw [if_neg this]; rfl
  | succ n ih =>
    rw [Memory.writeLE, ih (Memory.wf_set a _ h), Memory.get_set h]
    by_cases hba : b = a
    · subst hba
      have h1 : ¬(b + 1 ≤ b ∧ b < b + 1 + n) := by omega
      have h2 : b ≤ b ∧ b < b + (n + 1) := by omega
      simp [h2]
    · by_cases hin : a + 1 ≤ b ∧ b < a + 1 + n
      · have h2 : a ≤ b ∧ b < a + (n + 1) := by omega
        have h3 : b - a = (b - (a + 1)) + 1 := by omega
        rw [if_pos hin, if_pos h2, h3, Nat.pow_succ', Nat.div_div_eq_div_mul]
      · have h2 : ¬(a ≤ b ∧ b < a + (n + 1)) := by omega
        rw [if_neg hin, if_neg hba, if_neg h2]

/-- Reading depends on the bytes read alone. -/
theorem Memory.readLE_congr {m m' : Memory} (a n : Nat)
    (h : ∀ b, a ≤ b → b < a + n → Memory.get m b = Memory.get m' b) : Memory.readLE m a n = Memory.readLE m' a n := by
  induction n generalizing a with
  | zero => rfl
  | succ n ih =>
    simp only [Memory.readLE]
    rw [h a (by omega) (by omega), ih (a + 1) (fun b h1 h2 => h b (by omega) (by omega))]

/-- A read of `n` bytes is a number below 256^n. -/
theorem Memory.readLE_lt (m : Memory) (a n : Nat) : Memory.readLE m a n < 256 ^ n := by
  induction n generalizing a with
  | zero => simp [Memory.readLE]
  | succ n ih =>
    have h1 := ih (a + 1)
    have h2 := (Memory.get m a).isLt
    simp only [Memory.readLE, Nat.pow_succ]
    omega

theorem Memory.readLE_writeLE_same {m : Memory} (h : Memory.wf m = true) (a n v : Nat) :
    Memory.readLE (Memory.writeLE m a n v) a n = v % 256 ^ n := by
  have key : ∀ (j : Nat) (c : Nat), c + j = n →
      Memory.readLE (Memory.writeLE m a n v) (a + c) j = v / 256 ^ c % 256 ^ j := by
    intro j
    induction j with
    | zero => intro c _; simp [Memory.readLE, Nat.mod_one]
    | succ j ih =>
      intro c hc
      have h1 : a ≤ a + c ∧ a + c < a + n := by omega
      have h2 : a + c + 1 = a + (c + 1) := by omega
      rw [Memory.readLE, Memory.get_writeLE h, if_pos h1, h2, ih (c + 1) (by omega)]
      have h3 : a + c - a = c := by omega
      rw [h3, BitVec.toNat_ofNat, Nat.pow_succ 256 c, ← Nat.div_div_eq_div_mul, Nat.pow_succ' (m := 256) (n := j),
        Nat.mod_mul]
  have := key n 0 (by omega)
  simpa using this

/-! ### The buffer's end (R50) -/

theorem Memory.mem_set {m : Memory} {a : Nat} {v : Byte} {c : Host.Cell} (h : c ∈ Memory.set m a v) :
    c = (a, v) ∨ c ∈ m := by
  induction m with
  | nil =>
    unfold Memory.set at h
    split at h <;> simp_all
  | cons d m ih =>
    obtain ⟨b, w⟩ := d
    unfold Memory.set at h
    repeat' split at h
    all_goals simp only [List.mem_cons] at h ⊢
    · exact .inr h
    · exact h
    · exact .inr (.inr h)
    · rcases h with h | h
      · exact .inl h
      · exact .inr (.inr h)
    · rcases h with h | h
      · exact .inr (.inl h)
      · rcases ih h with h | h
        · exact .inl h
        · exact .inr (.inr h)

theorem Memory.inBuffer_set {m : Memory} {a : Nat} (v : Byte) (h : Memory.inBuffer m = true) (ha : a < Config.memSize) :
    Memory.inBuffer (Memory.set m a v) = true := by
  rw [Memory.inBuffer, List.all_eq_true] at *
  intro c hc
  rcases Memory.mem_set hc with rfl | hm
  · exact decide_eq_true ha
  · exact h c hm

theorem Memory.inBuffer_writeLE {m : Memory} (a n v : Nat) (h : Memory.inBuffer m = true) (ha : a + n ≤ Config.memSize) :
    Memory.inBuffer (Memory.writeLE m a n v) = true := by
  induction n generalizing m a v with
  | zero => exact h
  | succ n ih => exact ih _ _ (Memory.inBuffer_set _ h (by omega)) (by omega)

/-! ### The checked accesses (R66, R67) -/

/-- Everything a checked read can answer: the start error, the overread, or the little-endian value. -/
theorem checkedRead_cases (k : ReadKind) (a : Word) (w : Width) (p : Priv) (m : Memory) :
    (∃ e, startError k a.toNat p = some e ∧ checkedRead k a w p m = .error e) ∨
    (startError k a.toNat p = none ∧ crossing a.toNat w.bytes = true ∧ checkedRead k a w p m = .error (overread p)) ∨
    (startError k a.toNat p = none ∧ crossing a.toNat w.bytes = false ∧
      checkedRead k a w p m = .ok (BitVec.ofNat 32 (Memory.readLE m a.toNat w.bytes))) := by
  unfold checkedRead
  cases h : startError k a.toNat p with
  | some e => exact .inl ⟨e, rfl, rfl⟩
  | none => cases hc : crossing a.toNat w.bytes <;> simp

/-- Everything a checked write can answer: the start error, the overflow, or the memory with the bytes written. -/
theorem checkedWrite_cases (a : Word) (w : Width) (v : Word) (p : Priv) (m : Memory) :
    (∃ e, writeStart a.toNat p = some e ∧ checkedWrite a w v p m = .error e) ∨
    (writeStart a.toNat p = none ∧ crossing a.toNat w.bytes = true ∧
      checkedWrite a w v p m = .error (overflowError a.toNat p)) ∨
    (writeStart a.toNat p = none ∧ crossing a.toNat w.bytes = false ∧
      checkedWrite a w v p m = .ok (Memory.writeLE m a.toNat w.bytes v.toNat)) := by
  unfold checkedWrite
  cases h : writeStart a.toNat p with
  | some e => exact .inl ⟨e, rfl, rfl⟩
  | none => cases hc : crossing a.toNat w.bytes <;> simp

/-- What a write that succeeds has done. -/
theorem checkedWrite_ok {a : Word} {w : Width} {v : Word} {p : Priv} {m m' : Memory}
    (h : checkedWrite a w v p m = .ok m') :
    writeStart a.toNat p = none ∧ crossing a.toNat w.bytes = false ∧
      m' = Memory.writeLE m a.toNat w.bytes v.toNat := by
  rcases checkedWrite_cases a w v p m with ⟨e, _, h2⟩ | ⟨_, _, h2⟩ | ⟨h1, h2, h3⟩
  · rw [h] at h2; cases h2
  · rw [h] at h2; cases h2
  · rw [h] at h3; injection h3 with h3; exact ⟨h1, h2, h3⟩

/-- What a read that succeeds has answered. -/
theorem checkedRead_ok {k : ReadKind} {a : Word} {w : Width} {p : Priv} {m : Memory} {v : Word}
    (h : checkedRead k a w p m = .ok v) :
    startError k a.toNat p = none ∧ crossing a.toNat w.bytes = false ∧
      v = BitVec.ofNat 32 (Memory.readLE m a.toNat w.bytes) := by
  rcases checkedRead_cases k a w p m with ⟨e, _, h2⟩ | ⟨_, _, h2⟩ | ⟨h1, h2, h3⟩
  · rw [h] at h2; cases h2
  · rw [h] at h2; cases h2
  · rw [h] at h3; injection h3 with h3; exact ⟨h1, h2, h3⟩

/-- A checked write keeps the canonical form. -/
theorem checkedWrite_wf {a : Word} {w : Width} {v : Word} {p : Priv} {m m' : Memory}
    (h : checkedWrite a w v p m = .ok m') (hm : Memory.wf m = true) : Memory.wf m' = true := by
  rw [(checkedWrite_ok h).2.2]; exact Memory.wf_writeLE _ _ _ hm

/-- The edges of the default map (R59), as a closed list. -/
theorem edges_eq : edges =
    [0x000FF000, 0x00100000, 0x00100000, 0x00200000, 0x00200000, 0x00300000, 0x00300000, 0x003E0000,
     0x003E0000, 0x00400000, 0x00400000, 0x00500000, 0x00500000, 0x00580000, 0x00580000, 0x00600000,
     0x00600000, 0x00700000, 0x00700000, 0x00800000, 0x00800000, 0x00D00000, 0x00F00000, 0x01000000] := by
  decide

/-- A crossing is an edge inside the access, past its first byte (R65). -/
theorem crossing_iff (a n : Nat) : crossing a n = true ↔ ∃ e ∈ edges, a < e ∧ e < a + n := by
  simp [crossing, List.any_eq_true]

/-- An admitted write ends inside the buffer. -/
theorem write_in_buffer {a n : Nat} {p : Priv} (h : writeStart a p = none) (hc : crossing a n = false) :
    a + n ≤ Config.memSize := by
  have ha : a < Config.memSize := by
    cases p
    · by_contra hge
      have h1 : ¬((Config.lo .ubss ≤ a ∧ a ≤ Config.hi .uheap) ∨ InRegion .ustack a) := by
        simp only [InRegion, Config.lo, Config.hi, Config.bounds, Config.memSize] at *; omega
      rw [writeStart, if_pos h1] at h; cases h
    · by_contra hge
      have h1 : ¬InRegion .ktext a := by
        simp only [InRegion, Config.lo, Config.hi, Config.bounds, Config.memSize] at *; omega
      have h2 : ¬a < Config.lo .kdata := by
        simp only [Config.lo, Config.bounds, Config.memSize] at *; omega
      rw [writeStart, if_neg h1, if_neg h2, if_pos (by omega)] at h; cases h
  by_contra hgt
  have : crossing a n = true := by
    rw [crossing_iff]
    exact ⟨Config.memSize, by rw [edges_eq]; decide, ha, by omega⟩
  rw [hc] at this; cases this

/-- A checked write keeps the memory inside the buffer. -/
theorem checkedWrite_inBuffer {a : Word} {w : Width} {v : Word} {p : Priv} {m m' : Memory}
    (h : checkedWrite a w v p m = .ok m') (hm : Memory.inBuffer m = true) : Memory.inBuffer m' = true := by
  obtain ⟨h1, h2, h3⟩ := checkedWrite_ok h
  rw [h3]
  exact Memory.inBuffer_writeLE _ _ _ hm (write_in_buffer h1 h2)

end Sys2Proof.Machine
end

