-- ==== Sys2Proof/Laws/Registers.lean ====
section
/-! SUPPORT. The laws of the register file (R21, R22): what a read gives after a write, and what leaves registers alone. -/

namespace Sys2Proof.Machine

/-- A read depends on the general registers and SP alone (R21). -/
theorem readReg_congr {s t : State} (hg : t.gpr = s.gpr) (hs : t.sp = s.sp) (i : RegIdx) : readReg i t = readReg i s := by
  unfold readReg
  simp only [hg, hs]

/-- A read after a write (R22): the value at the index written, but for index 30, and every other index as before. -/
theorem readReg_putReg (i j : RegIdx) (v : Word) (s : State) :
    readReg j (putReg i v s) = if j = i ∧ i ≠ 30#5 then v else readReg j s := by
  unfold putReg
  by_cases h30 : i = 30#5
  · simp [h30]
  · have hj := j.isLt
    have hi := i.isLt
    have hij : j = i ↔ j.toNat = i.toNat := by rw [← BitVec.toNat_inj]
    rw [if_neg h30]
    by_cases hlt : i.toNat < 31
    · rw [dif_pos hlt]
      unfold readReg
      by_cases hjl : j.toNat < 31
      · simp only [hjl, dif_pos, Vector.getElem_set, hij]
        by_cases he : i.toNat = j.toNat
        · rw [if_pos he, if_pos ⟨he.symm, h30⟩]
        · rw [if_neg he, if_neg (fun h => he h.1.symm)]
      · have : j.toNat ≠ i.toNat := by omega
        simp [hjl, hij, this]
    · rw [dif_neg hlt]
      unfold readReg
      by_cases hjl : j.toNat < 31
      · have : j.toNat ≠ i.toNat := by omega
        simp [hjl, hij, this]
      · have : j.toNat = i.toNat := by omega
        rw [dif_neg hjl, if_pos ⟨hij.mpr this, h30⟩]

@[simp] theorem readReg_regFileAccess (i : RegIdx) (s : State) : readReg i (regFileAccess s) = readReg i s :=
  readReg_congr (by simp) (by simp) i

/-- A read after `x[i] <- v` (R22). -/
theorem readReg_writeReg (i j : RegIdx) (v : Word) (s : State) :
    readReg j (writeReg i v s) = if j = i ∧ i ≠ 30#5 then v else readReg j s := by
  rw [writeReg, readReg_putReg, readReg_regFileAccess]

/-- The register write in the words claims use. -/
theorem regWritten_writeReg (i : RegIdx) (v : Word) {s t : State} (h : ∀ j, readReg j t = readReg j s) :
    RegWritten i v s (writeReg i v t) := by
  constructor
  · rw [readReg_writeReg]
    by_cases h30 : i = 30#5 <;> simp [h30, h]
  · intro j hj
    rw [readReg_writeReg, if_neg (fun hh => hj hh.1), h]

@[simp] theorem readReg_writeFlags (i : RegIdx) (f : Flags) (s : State) : readReg i (writeFlags f s) = readReg i s :=
  readReg_congr rfl rfl i
@[simp] theorem readReg_callHost (i : RegIdx) (c : CoreCall) (s : State) : readReg i (callHost c s) = readReg i s :=
  readReg_congr rfl rfl i
@[simp] theorem readReg_fatal (i : RegIdx) (r : FatalReason) (s : State) : readReg i (fatal r s) = readReg i s :=
  readReg_congr rfl rfl i
@[simp] theorem readReg_haltCheck (i : RegIdx) (s : State) : readReg i (haltCheck s) = readReg i s :=
  readReg_congr rfl rfl i
@[simp] theorem readReg_enterHandler (i : RegIdx) (e : GuestException) (s : State) :
    readReg i (enterHandler e s) = readReg i s :=
  readReg_congr rfl rfl i
@[simp] theorem readReg_advance (i : RegIdx) (s : State) : readReg i (advance s) = readReg i s := readReg_congr rfl rfl i
@[simp] theorem readReg_setIe (i : RegIdx) (v : Bool) (s : State) : readReg i (setIe v s) = readReg i s :=
  readReg_congr rfl rfl i
@[simp] theorem readReg_latchCstr (i : RegIdx) (v : Word) (s : State) : readReg i (latchCstr v s) = readReg i s :=
  readReg_congr (by simp) (by simp) i
@[simp] theorem readReg_beginCycle (i : RegIdx) (s : State) : readReg i (beginCycle s) = readReg i s :=
  readReg_congr (by simp) (by simp) i
@[simp] theorem readReg_endOfCycle (i : RegIdx) (s : State) : readReg i (endOfCycle s) = readReg i s :=
  readReg_congr (by simp) (by simp) i
@[simp] theorem readReg_hostResume (i : RegIdx) (entry : Word) (s : State) : readReg i (hostResume entry s) = readReg i s :=
  readReg_congr (by simp) (by simp) i
@[simp] theorem readReg_hostAcknowledge (i : RegIdx) (kind : Nat) (s : State) :
    readReg i (hostAcknowledge kind s) = readReg i s :=
  readReg_congr (by simp) (by simp) i

/-- The register write leaves everything else to the commit check (R22, R40). -/
theorem untouched_writeReg (i : RegIdx) (v : Word) (s : State) : Untouched s (writeReg i v s) := by
  constructor <;> simp

/-- What `x[i] <- v` does, once (R22): the register, the commit, and nothing else. -/
theorem writeReg_effect (i : RegIdx) (v : Word) (s : State) : WritesOneRegister i v s (writeReg i v s) := by
  refine ⟨regWritten_writeReg i v (fun _ => rfl), by simp, by simp, by simp, fun a => by simp, untouched_writeReg i v s⟩

end Sys2Proof.Machine
end

