-- ==== Sys2Proof/Laws/Ops.lean ====
section
/-! SUPPORT. Everything each shared operation can do, said once: callers cite these and unfold nothing. -/

namespace Sys2Proof.Machine

/-- The active process-state cell is always readable under the default map (R38, R61): the read gives the pointer. -/
theorem activePs_eq (s : State) : activePs s = .ok (psPointer s) := by
  rcases checkedRead_cases .data Config.activePsPtr .word .kernel s.mem with ⟨e, h, _⟩ | ⟨_, h, _⟩ | ⟨_, _, h⟩
  · have h0 : startError .data Config.activePsPtr.toNat .kernel = none := by decide
    rw [h0] at h; cases h
  · have h0 : crossing Config.activePsPtr.toNat Width.word.bytes = false := by decide
    rw [h0] at h; cases h
  · exact h

/-- What the commit check does, once (R40): CSTR and the latch, and nothing else. -/
theorem regFileAccess_effect (s : State) :
    regFileAccess s = { s with cstr := committedCstr s, cstrLatch := committedLatch s } := by
  unfold regFileAccess committedCstr committedLatch Config.pendingPos
  cases s.cstrLatch.getLsbD 15 <;> rfl

/-- What delivery does, once (R280, R281): the handler is entered with nothing saved, or with the address and the tag
saved in the process-state record, or a write the engine does not admit is a fatal fault. -/
theorem deliver_cases (e : GuestException) (s : State) :
    (psPointer s = 0#32 ∧ deliver e s = enterHandler e s) ∨
    (∃ m1 m2, psPointer s ≠ 0#32 ∧
      checkedWrite (psPointer s + Config.psSavedIp) .word s.pc .kernel s.mem = .ok m1 ∧
      checkedWrite (psPointer s + Config.psTag) .byte ((GuestException.tag e).setWidth 32) .kernel m1 = .ok m2 ∧
      deliver e s = enterHandler e { s with mem := m2 }) ∨
    (∃ err, psPointer s ≠ 0#32 ∧
      checkedWrite (psPointer s + Config.psSavedIp) .word s.pc .kernel s.mem = .error err ∧
      deliver e s = fatal .psAccess s) ∨
    (∃ m1 err, psPointer s ≠ 0#32 ∧
      checkedWrite (psPointer s + Config.psSavedIp) .word s.pc .kernel s.mem = .ok m1 ∧
      checkedWrite (psPointer s + Config.psTag) .byte ((GuestException.tag e).setWidth 32) .kernel m1 = .error err ∧
      deliver e s = fatal .psAccess { s with mem := m1 }) := by
  unfold deliver
  rw [activePs_eq]
  by_cases hp : psPointer s = 0#32
  · exact .inl ⟨hp, if_pos hp⟩
  · have hto : (if psPointer s = 0#32 then enterHandler e s else deliverTo (psPointer s) e s) =
        deliverTo (psPointer s) e s := if_neg hp
    simp only [hto]
    unfold deliverTo
    cases h1 : checkedWrite (psPointer s + Config.psSavedIp) .word s.pc .kernel s.mem with
    | error err => exact .inr (.inr (.inl ⟨err, hp, rfl, rfl⟩))
    | ok m1 =>
      cases h2 : checkedWrite (psPointer s + Config.psTag) .byte ((GuestException.tag e).setWidth 32) .kernel m1 with
      | error err => exact .inr (.inr (.inr ⟨m1, err, hp, rfl, h2, by simp [h2]⟩))
      | ok m2 => exact .inr (.inl ⟨m1, m2, hp, rfl, h2, by simp [h2]⟩)

/-- What the exception return does, once (R248). -/
theorem returnFromException_cases (s : State) :
    (psPointer s = 0#32 ∧ returnFromException s = fatal .eretNoProcess s) ∨
    (∃ err, psPointer s ≠ 0#32 ∧
      checkedRead .data (psPointer s + Config.psSavedIp) .word .kernel s.mem = .error err ∧
      returnFromException s = fatal .psAccess s) ∨
    (∃ ip, psPointer s ≠ 0#32 ∧
      checkedRead .data (psPointer s + Config.psSavedIp) .word .kernel s.mem = .ok ip ∧
      returnFromException s = { s with pc := ip, cstr := cstrSet s.cstr .priv false }) := by
  unfold returnFromException
  rw [activePs_eq]
  by_cases hp : psPointer s = 0#32
  · exact .inl ⟨hp, if_pos hp⟩
  · cases h : checkedRead .data (psPointer s + Config.psSavedIp) .word .kernel s.mem with
    | error err => exact .inr (.inl ⟨err, hp, rfl, by simp [hp, h]⟩)
    | ok ip => exact .inr (.inr ⟨ip, hp, rfl, by simp [hp, h]⟩)

/-- What the halt check can report, once (R294). -/
theorem haltVerdict_cases (s : State) :
    (psPointer s = 0#32 ∧ haltVerdict s = .haltedClean) ∨
    (∃ err, psPointer s ≠ 0#32 ∧ checkedRead .data (psPointer s + Config.psTag) .byte .kernel s.mem = .error err ∧
      haltVerdict s = .deliverFatal .psAccess) ∨
    (∃ t, psPointer s ≠ 0#32 ∧ checkedRead .data (psPointer s + Config.psTag) .byte .kernel s.mem = .ok t ∧
      haltVerdict s = if t = 0#32 then .haltedClean else .deliverCoredump) := by
  unfold haltVerdict
  rw [activePs_eq]
  by_cases hp : psPointer s = 0#32
  · exact .inl ⟨hp, if_pos hp⟩
  · cases h : checkedRead .data (psPointer s + Config.psTag) .byte .kernel s.mem with
    | error err => exact .inr (.inl ⟨err, hp, rfl, by simp [hp, h]⟩)
    | ok t => exact .inr (.inr ⟨t, hp, rfl, by simp [hp, h]⟩)

/-- A privileged sub-opcode in user mode takes the privilege violation (R125). -/
theorem privileged_user {s : State} (effect : State → State) (h : s.priv = .user) :
    privileged effect s = deliver .privViolation s := by
  unfold privileged; rw [h]

/-- A privileged sub-opcode in kernel mode commits and takes its effect (R125, R127). -/
theorem privileged_kernel {s : State} (effect : State → State) (h : s.priv = .kernel) :
    privileged effect s = effect (regFileAccess s) := by
  unfold privileged; rw [h]

/-- An access error in user mode is a data abort, in kernel mode a fatal fault (R212). -/
theorem accessError_cases (e : MemoryError) (s : State) :
    (s.priv = .user ∧ accessError e s = deliver (.dataAbort e) s) ∨
    (s.priv = .kernel ∧ accessError e s = fatal (.kernelData e) s) := by
  unfold accessError
  cases s.priv
  · exact .inl ⟨rfl, rfl⟩
  · exact .inr ⟨rfl, rfl⟩

/-- A load does one of two things (R205, R212): the checked read's value goes to the register, or its error is taken. -/
theorem load_cases (w : Width) (rd rb : RegIdx) (off : MemOffset) (s : State) :
    (∃ v, checkedRead .data (effAddr rb off (regFileAccess s)) w (committedPriv s) s.mem = .ok v ∧
      load w rd rb off s = writeReg rd v (regFileAccess s)) ∨
    (∃ e, checkedRead .data (effAddr rb off (regFileAccess s)) w (committedPriv s) s.mem = .error e ∧
      load w rd rb off s = accessError e (regFileAccess s)) := by
  unfold load
  simp only [regFileAccess_priv, regFileAccess_mem]
  cases h : checkedRead .data (effAddr rb off (regFileAccess s)) w (committedPriv s) s.mem with
  | error e => exact .inr ⟨e, rfl, rfl⟩
  | ok v => exact .inl ⟨v, rfl, rfl⟩

/-- A store does one of two things (R209, R212): the checked write's memory, or its error is taken. -/
theorem store_cases (w : Width) (rdata rb : RegIdx) (off : MemOffset) (s : State) :
    (∃ m, checkedWrite (effAddr rb off (regFileAccess s)) w (readReg rdata s) (committedPriv s) s.mem = .ok m ∧
      store w rdata rb off s = { regFileAccess s with mem := m }) ∨
    (∃ e, checkedWrite (effAddr rb off (regFileAccess s)) w (readReg rdata s) (committedPriv s) s.mem = .error e ∧
      store w rdata rb off s = accessError e (regFileAccess s)) := by
  unfold store
  simp only [regFileAccess_priv, regFileAccess_mem, readReg_regFileAccess]
  cases h : checkedWrite (effAddr rb off (regFileAccess s)) w (readReg rdata s) (committedPriv s) s.mem with
  | error e => exact .inr ⟨e, rfl, rfl⟩
  | ok m => exact .inl ⟨m, rfl, rfl⟩

/-- The plain ALU shape of an I-form instruction, once: one register and the commit (R136). -/
theorem aluImm_effect (op : AluOp) (rd rs : RegIdx) (imm14 : BitVec 14) (s : State) :
    WritesOneRegister rd (alu op (readReg rs s) (immI imm14)) s (aluImm op rd rs imm14 s) := by
  unfold aluImm
  simp only [readReg_regFileAccess, writeReg, regFileAccess_idem]
  exact writeReg_effect rd _ s

/-- The plain ALU shape of an R-form instruction, once: one register and the commit (R136). -/
theorem aluReg_effect (op : AluOp) (rd rs1 rs2 : RegIdx) (s : State) :
    WritesOneRegister rd (alu op (readReg rs1 s) (readReg rs2 s)) s (aluReg op rd rs1 rs2 s) := by
  unfold aluReg
  simp only [readReg_regFileAccess, writeReg, regFileAccess_idem]
  exact writeReg_effect rd _ s

end Sys2Proof.Machine
end

