-- ==== Sys2Proof/Laws/PerInstr.lean ====
section
/-! SUPPORT. Facts about every instruction as syntax, one lemma per constructor. -/

namespace Sys2Proof.Laws

/-- The symbolic opcode of an instruction (R104). -/
def symOf : Instr → Sym
  | .nop => .nop
  | .addImm _ _ _ => .addI
  | .addReg _ _ _ => .addR
  | .addsImm _ _ _ => .addsI
  | .addsReg _ _ _ => .addsR
  | .subImm _ _ _ => .subI
  | .subReg _ _ _ => .subR
  | .subsImm _ _ _ => .subsI
  | .subsReg _ _ _ => .subsR
  | .cmpImm _ _ => .cmpI
  | .cmpReg _ _ => .cmpR
  | .orImm _ _ _ => .orI
  | .orReg _ _ _ => .orR
  | .andImm _ _ _ => .andI
  | .andReg _ _ _ => .andR
  | .xorImm _ _ _ => .xorI
  | .xorReg _ _ _ => .xorR
  | .notImm _ _ _ => .notI
  | .notReg _ _ _ => .notR
  | .lslImm _ _ _ => .lslI
  | .lslReg _ _ _ => .lslR
  | .lsrImm _ _ _ => .lsrI
  | .lsrReg _ _ _ => .lsrR
  | .asrImm _ _ _ => .asrI
  | .asrReg _ _ _ => .asrR
  | .mul _ _ _ => .mul
  | .div _ _ _ => .div
  | .ld _ _ _ => .ld
  | .ldh _ _ _ => .ldh
  | .ldb _ _ _ => .ldb
  | .str _ _ _ => .str
  | .strh _ _ _ => .strh
  | .strb _ _ _ => .strb
  | .b _ => .b
  | .call _ => .call
  | .br _ => .br
  | .ret _ => .ret
  | .bEq _ => .bcc
  | .bNe _ => .bcc
  | .bOv _ => .bcc
  | .bNv _ => .bcc
  | .bMi _ => .bcc
  | .bPz _ => .bcc
  | .bCc _ => .bcc
  | .bCs _ => .bcc
  | .bGt _ => .bcc
  | .bGe _ => .bcc
  | .bLt _ => .bcc
  | .bLe _ => .bcc
  | .syscall => .sys
  | .hlt => .sys
  | .si => .sys
  | .di => .sys
  | .eret => .sys
  | .ldir _ => .sys
  | .mvcstr _ => .sys
  | .ldcstr _ => .sys
  | .resr _ => .sys

/-- No encoding falls outside the top-level table (R104, R111): the byte of every instruction's word is the row of its
symbolic opcode. -/
def EncodeOpcode.Statement (i : Instr) : Prop := opcodeTable.lookup (fieldOp8 (encode i)) = some (symOf i)

theorem EncodeOpcode.nop : EncodeOpcode.Statement .nop := by
  unfold EncodeOpcode.Statement
  decide
theorem EncodeOpcode.addImm (rd rs : RegIdx) (imm14 : BitVec 14) : EncodeOpcode.Statement (.addImm rd rs imm14) := by
  unfold EncodeOpcode.Statement encode
  rw [fieldOp8_encodeI]; exact opcodeTable_lookup_opc _
theorem EncodeOpcode.addReg (rd rs1 rs2 : RegIdx) : EncodeOpcode.Statement (.addReg rd rs1 rs2) := by
  unfold EncodeOpcode.Statement encode
  rw [fieldOp8_encodeR]; exact opcodeTable_lookup_opc _
theorem EncodeOpcode.addsImm (rd rs : RegIdx) (imm14 : BitVec 14) : EncodeOpcode.Statement (.addsImm rd rs imm14) := by
  unfold EncodeOpcode.Statement encode
  rw [fieldOp8_encodeI]; exact opcodeTable_lookup_opc _
theorem EncodeOpcode.addsReg (rd rs1 rs2 : RegIdx) : EncodeOpcode.Statement (.addsReg rd rs1 rs2) := by
  unfold EncodeOpcode.Statement encode
  rw [fieldOp8_encodeR]; exact opcodeTable_lookup_opc _
theorem EncodeOpcode.subImm (rd rs : RegIdx) (imm14 : BitVec 14) : EncodeOpcode.Statement (.subImm rd rs imm14) := by
  unfold EncodeOpcode.Statement encode
  rw [fieldOp8_encodeI]; exact opcodeTable_lookup_opc _
theorem EncodeOpcode.subReg (rd rs1 rs2 : RegIdx) : EncodeOpcode.Statement (.subReg rd rs1 rs2) := by
  unfold EncodeOpcode.Statement encode
  rw [fieldOp8_encodeR]; exact opcodeTable_lookup_opc _
theorem EncodeOpcode.subsImm (rd rs : RegIdx) (imm14 : BitVec 14) : EncodeOpcode.Statement (.subsImm rd rs imm14) := by
  unfold EncodeOpcode.Statement encode
  rw [fieldOp8_encodeI]; exact opcodeTable_lookup_opc _
theorem EncodeOpcode.subsReg (rd rs1 rs2 : RegIdx) : EncodeOpcode.Statement (.subsReg rd rs1 rs2) := by
  unfold EncodeOpcode.Statement encode
  rw [fieldOp8_encodeR]; exact opcodeTable_lookup_opc _
theorem EncodeOpcode.cmpImm (rs : RegIdx) (imm14 : BitVec 14) : EncodeOpcode.Statement (.cmpImm rs imm14) := by
  unfold EncodeOpcode.Statement encode
  rw [fieldOp8_encodeI]; exact opcodeTable_lookup_opc _
theorem EncodeOpcode.cmpReg (rs1 rs2 : RegIdx) : EncodeOpcode.Statement (.cmpReg rs1 rs2) := by
  unfold EncodeOpcode.Statement encode
  rw [fieldOp8_encodeR]; exact opcodeTable_lookup_opc _
theorem EncodeOpcode.orImm (rd rs : RegIdx) (imm14 : BitVec 14) : EncodeOpcode.Statement (.orImm rd rs imm14) := by
  unfold EncodeOpcode.Statement encode
  rw [fieldOp8_encodeI]; exact opcodeTable_lookup_opc _
theorem EncodeOpcode.orReg (rd rs1 rs2 : RegIdx) : EncodeOpcode.Statement (.orReg rd rs1 rs2) := by
  unfold EncodeOpcode.Statement encode
  rw [fieldOp8_encodeR]; exact opcodeTable_lookup_opc _
theorem EncodeOpcode.andImm (rd rs : RegIdx) (imm14 : BitVec 14) : EncodeOpcode.Statement (.andImm rd rs imm14) := by
  unfold EncodeOpcode.Statement encode
  rw [fieldOp8_encodeI]; exact opcodeTable_lookup_opc _
theorem EncodeOpcode.andReg (rd rs1 rs2 : RegIdx) : EncodeOpcode.Statement (.andReg rd rs1 rs2) := by
  unfold EncodeOpcode.Statement encode
  rw [fieldOp8_encodeR]; exact opcodeTable_lookup_opc _
theorem EncodeOpcode.xorImm (rd rs : RegIdx) (imm14 : BitVec 14) : EncodeOpcode.Statement (.xorImm rd rs imm14) := by
  unfold EncodeOpcode.Statement encode
  rw [fieldOp8_encodeI]; exact opcodeTable_lookup_opc _
theorem EncodeOpcode.xorReg (rd rs1 rs2 : RegIdx) : EncodeOpcode.Statement (.xorReg rd rs1 rs2) := by
  unfold EncodeOpcode.Statement encode
  rw [fieldOp8_encodeR]; exact opcodeTable_lookup_opc _
theorem EncodeOpcode.notImm (rd rs : RegIdx) (imm14 : BitVec 14) : EncodeOpcode.Statement (.notImm rd rs imm14) := by
  unfold EncodeOpcode.Statement encode
  rw [fieldOp8_encodeI]; exact opcodeTable_lookup_opc _
theorem EncodeOpcode.notReg (rd rs1 rs2 : RegIdx) : EncodeOpcode.Statement (.notReg rd rs1 rs2) := by
  unfold EncodeOpcode.Statement encode
  rw [fieldOp8_encodeR]; exact opcodeTable_lookup_opc _
theorem EncodeOpcode.lslImm (rd rs : RegIdx) (imm14 : BitVec 14) : EncodeOpcode.Statement (.lslImm rd rs imm14) := by
  unfold EncodeOpcode.Statement encode
  rw [fieldOp8_encodeI]; exact opcodeTable_lookup_opc _
theorem EncodeOpcode.lslReg (rd rs1 rs2 : RegIdx) : EncodeOpcode.Statement (.lslReg rd rs1 rs2) := by
  unfold EncodeOpcode.Statement encode
  rw [fieldOp8_encodeR]; exact opcodeTable_lookup_opc _
theorem EncodeOpcode.lsrImm (rd rs : RegIdx) (imm14 : BitVec 14) : EncodeOpcode.Statement (.lsrImm rd rs imm14) := by
  unfold EncodeOpcode.Statement encode
  rw [fieldOp8_encodeI]; exact opcodeTable_lookup_opc _
theorem EncodeOpcode.lsrReg (rd rs1 rs2 : RegIdx) : EncodeOpcode.Statement (.lsrReg rd rs1 rs2) := by
  unfold EncodeOpcode.Statement encode
  rw [fieldOp8_encodeR]; exact opcodeTable_lookup_opc _
theorem EncodeOpcode.asrImm (rd rs : RegIdx) (imm14 : BitVec 14) : EncodeOpcode.Statement (.asrImm rd rs imm14) := by
  unfold EncodeOpcode.Statement encode
  rw [fieldOp8_encodeI]; exact opcodeTable_lookup_opc _
theorem EncodeOpcode.asrReg (rd rs1 rs2 : RegIdx) : EncodeOpcode.Statement (.asrReg rd rs1 rs2) := by
  unfold EncodeOpcode.Statement encode
  rw [fieldOp8_encodeR]; exact opcodeTable_lookup_opc _
theorem EncodeOpcode.mul (rd rs1 rs2 : RegIdx) : EncodeOpcode.Statement (.mul rd rs1 rs2) := by
  unfold EncodeOpcode.Statement encode
  rw [fieldOp8_encodeR]; exact opcodeTable_lookup_opc _
theorem EncodeOpcode.div (rd rs1 rs2 : RegIdx) : EncodeOpcode.Statement (.div rd rs1 rs2) := by
  unfold EncodeOpcode.Statement encode
  rw [fieldOp8_encodeR]; exact opcodeTable_lookup_opc _
theorem EncodeOpcode.ld (rd rb : RegIdx) (off : MemOffset) : EncodeOpcode.Statement (.ld rd rb off) := by
  unfold EncodeOpcode.Statement encode
  cases off with
  | imm simm9 => rw [fieldOp8_encodeM_imm]; exact opcodeTable_lookup_opc _
  | index ri => rw [fieldOp8_encodeM_index]; exact opcodeTable_lookup_opc _
theorem EncodeOpcode.ldh (rd rb : RegIdx) (off : MemOffset) : EncodeOpcode.Statement (.ldh rd rb off) := by
  unfold EncodeOpcode.Statement encode
  cases off with
  | imm simm9 => rw [fieldOp8_encodeM_imm]; exact opcodeTable_lookup_opc _
  | index ri => rw [fieldOp8_encodeM_index]; exact opcodeTable_lookup_opc _
theorem EncodeOpcode.ldb (rd rb : RegIdx) (off : MemOffset) : EncodeOpcode.Statement (.ldb rd rb off) := by
  unfold EncodeOpcode.Statement encode
  cases off with
  | imm simm9 => rw [fieldOp8_encodeM_imm]; exact opcodeTable_lookup_opc _
  | index ri => rw [fieldOp8_encodeM_index]; exact opcodeTable_lookup_opc _
theorem EncodeOpcode.str (rdata rb : RegIdx) (off : MemOffset) : EncodeOpcode.Statement (.str rdata rb off) := by
  unfold EncodeOpcode.Statement encode
  cases off with
  | imm simm9 => rw [fieldOp8_encodeM_imm]; exact opcodeTable_lookup_opc _
  | index ri => rw [fieldOp8_encodeM_index]; exact opcodeTable_lookup_opc _
theorem EncodeOpcode.strh (rdata rb : RegIdx) (off : MemOffset) : EncodeOpcode.Statement (.strh rdata rb off) := by
  unfold EncodeOpcode.Statement encode
  cases off with
  | imm simm9 => rw [fieldOp8_encodeM_imm]; exact opcodeTable_lookup_opc _
  | index ri => rw [fieldOp8_encodeM_index]; exact opcodeTable_lookup_opc _
theorem EncodeOpcode.strb (rdata rb : RegIdx) (off : MemOffset) : EncodeOpcode.Statement (.strb rdata rb off) := by
  unfold EncodeOpcode.Statement encode
  cases off with
  | imm simm9 => rw [fieldOp8_encodeM_imm]; exact opcodeTable_lookup_opc _
  | index ri => rw [fieldOp8_encodeM_index]; exact opcodeTable_lookup_opc _
theorem EncodeOpcode.b (off24 : BitVec 24) : EncodeOpcode.Statement (.b off24) := by
  unfold EncodeOpcode.Statement encode
  rw [fieldOp8_encodeBi]; exact opcodeTable_lookup_opc _
theorem EncodeOpcode.call (off24 : BitVec 24) : EncodeOpcode.Statement (.call off24) := by
  unfold EncodeOpcode.Statement encode
  rw [fieldOp8_encodeBi]; exact opcodeTable_lookup_opc _
theorem EncodeOpcode.br (rs : RegIdx) : EncodeOpcode.Statement (.br rs) := by
  unfold EncodeOpcode.Statement encode
  rw [fieldOp8_encodeBu]; exact opcodeTable_lookup_opc _
theorem EncodeOpcode.ret (rs : RegIdx) : EncodeOpcode.Statement (.ret rs) := by
  unfold EncodeOpcode.Statement encode
  rw [fieldOp8_encodeBu]; exact opcodeTable_lookup_opc _
theorem EncodeOpcode.bEq (off19 : BitVec 19) : EncodeOpcode.Statement (.bEq off19) := by
  unfold EncodeOpcode.Statement encode
  rw [fieldOp8_encodeBc]; exact opcodeTable_lookup_opc _
theorem EncodeOpcode.bNe (off19 : BitVec 19) : EncodeOpcode.Statement (.bNe off19) := by
  unfold EncodeOpcode.Statement encode
  rw [fieldOp8_encodeBc]; exact opcodeTable_lookup_opc _
theorem EncodeOpcode.bOv (off19 : BitVec 19) : EncodeOpcode.Statement (.bOv off19) := by
  unfold EncodeOpcode.Statement encode
  rw [fieldOp8_encodeBc]; exact opcodeTable_lookup_opc _
theorem EncodeOpcode.bNv (off19 : BitVec 19) : EncodeOpcode.Statement (.bNv off19) := by
  unfold EncodeOpcode.Statement encode
  rw [fieldOp8_encodeBc]; exact opcodeTable_lookup_opc _
theorem EncodeOpcode.bMi (off19 : BitVec 19) : EncodeOpcode.Statement (.bMi off19) := by
  unfold EncodeOpcode.Statement encode
  rw [fieldOp8_encodeBc]; exact opcodeTable_lookup_opc _
theorem EncodeOpcode.bPz (off19 : BitVec 19) : EncodeOpcode.Statement (.bPz off19) := by
  unfold EncodeOpcode.Statement encode
  rw [fieldOp8_encodeBc]; exact opcodeTable_lookup_opc _
theorem EncodeOpcode.bCc (off19 : BitVec 19) : EncodeOpcode.Statement (.bCc off19) := by
  unfold EncodeOpcode.Statement encode
  rw [fieldOp8_encodeBc]; exact opcodeTable_lookup_opc _
theorem EncodeOpcode.bCs (off19 : BitVec 19) : EncodeOpcode.Statement (.bCs off19) := by
  unfold EncodeOpcode.Statement encode
  rw [fieldOp8_encodeBc]; exact opcodeTable_lookup_opc _
theorem EncodeOpcode.bGt (off19 : BitVec 19) : EncodeOpcode.Statement (.bGt off19) := by
  unfold EncodeOpcode.Statement encode
  rw [fieldOp8_encodeBc]; exact opcodeTable_lookup_opc _
theorem EncodeOpcode.bGe (off19 : BitVec 19) : EncodeOpcode.Statement (.bGe off19) := by
  unfold EncodeOpcode.Statement encode
  rw [fieldOp8_encodeBc]; exact opcodeTable_lookup_opc _
theorem EncodeOpcode.bLt (off19 : BitVec 19) : EncodeOpcode.Statement (.bLt off19) := by
  unfold EncodeOpcode.Statement encode
  rw [fieldOp8_encodeBc]; exact opcodeTable_lookup_opc _
theorem EncodeOpcode.bLe (off19 : BitVec 19) : EncodeOpcode.Statement (.bLe off19) := by
  unfold EncodeOpcode.Statement encode
  rw [fieldOp8_encodeBc]; exact opcodeTable_lookup_opc _
theorem EncodeOpcode.syscall : EncodeOpcode.Statement .syscall := by
  unfold EncodeOpcode.Statement encode
  rw [fieldOp8_encodeS]; exact opcodeTable_lookup_opc _
theorem EncodeOpcode.hlt : EncodeOpcode.Statement .hlt := by
  unfold EncodeOpcode.Statement encode
  rw [fieldOp8_encodeS]; exact opcodeTable_lookup_opc _
theorem EncodeOpcode.si : EncodeOpcode.Statement .si := by
  unfold EncodeOpcode.Statement encode
  rw [fieldOp8_encodeS]; exact opcodeTable_lookup_opc _
theorem EncodeOpcode.di : EncodeOpcode.Statement .di := by
  unfold EncodeOpcode.Statement encode
  rw [fieldOp8_encodeS]; exact opcodeTable_lookup_opc _
theorem EncodeOpcode.eret : EncodeOpcode.Statement .eret := by
  unfold EncodeOpcode.Statement encode
  rw [fieldOp8_encodeS]; exact opcodeTable_lookup_opc _
theorem EncodeOpcode.ldir (rd : RegIdx) : EncodeOpcode.Statement (.ldir rd) := by
  unfold EncodeOpcode.Statement encode
  rw [fieldOp8_encodeS]; exact opcodeTable_lookup_opc _
theorem EncodeOpcode.mvcstr (rs : RegIdx) : EncodeOpcode.Statement (.mvcstr rs) := by
  unfold EncodeOpcode.Statement encode
  rw [fieldOp8_encodeS]; exact opcodeTable_lookup_opc _
theorem EncodeOpcode.ldcstr (rd : RegIdx) : EncodeOpcode.Statement (.ldcstr rd) := by
  unfold EncodeOpcode.Statement encode
  rw [fieldOp8_encodeS]; exact opcodeTable_lookup_opc _
theorem EncodeOpcode.resr (rd : RegIdx) : EncodeOpcode.Statement (.resr rd) := by
  unfold EncodeOpcode.Statement encode
  rw [fieldOp8_encodeS]; exact opcodeTable_lookup_opc _

end Sys2Proof.Laws
end

