-- ==== Sys2Proof/Tests/Slice0.lean ====
section
/-! SUPPORT. Tests: the WellFormed smoke, decode words written out from the spec's encodings, one small test per instruction
with expected values from 95_test_vectors.md or the rules' examples, and for each statement with hypotheses a witness that meets them. -/

namespace Sys2Proof.Tests

open Sys2Proof.Machine

/-! ### WellFormed: an ill-formed term for each check -/

theorem test_wf_refuses_ld_imm_zero : Instr.wf (.ld 1#5 3#5 (.imm 0#9)) = false := by decide
theorem test_wf_refuses_ldh_imm_zero : Instr.wf (.ldh 1#5 3#5 (.imm 0#9)) = false := by decide
theorem test_wf_refuses_ldb_imm_zero : Instr.wf (.ldb 1#5 3#5 (.imm 0#9)) = false := by decide
theorem test_wf_refuses_str_imm_zero : Instr.wf (.str 1#5 3#5 (.imm 0#9)) = false := by decide
theorem test_wf_refuses_strh_imm_zero : Instr.wf (.strh 1#5 3#5 (.imm 0#9)) = false := by decide
theorem test_wf_refuses_strb_imm_zero : Instr.wf (.strb 1#5 3#5 (.imm 0#9)) = false := by decide
theorem test_wf_accepts_index : Instr.wf (.ld 1#5 3#5 (.index 30#5)) = true := by decide

/-- The default map meets R55's constraints. -/
theorem test_map_default : mapOrdered Config.bounds Config.memSize = true := by decide

/-- The default map with one region's bounds replaced. -/
def moved (r : Region) (b : Bounds) : Region → Bounds := fun x => if x = r then b else Config.bounds x

/-- One map per constraint of R55 that breaks it (I10): every one is refused. -/
theorem test_map_refused :
    (mapOrdered (moved .kheap ⟨0x3E0000, 0x3DFFFF⟩) Config.memSize ||
     mapOrdered (moved .evt ⟨0xFF000, 0x100000⟩) Config.memSize ||
     mapOrdered (moved .kdata ⟨0x200001, 0x2FFFFF⟩) Config.memSize ||
     mapOrdered (moved .kheap ⟨0x300001, 0x3DFFFF⟩) Config.memSize ||
     mapOrdered (moved .kstack ⟨0x3E0001, 0x3FFFFF⟩) Config.memSize ||
     mapOrdered (moved .syslib ⟨0x3FFFFF, 0x4FFFFF⟩) Config.memSize ||
     mapOrdered (moved .syslib ⟨0x400000, 0x500000⟩) Config.memSize ||
     mapOrdered (moved .uconst ⟨0x580001, 0x5FFFFF⟩) Config.memSize ||
     mapOrdered (moved .udata ⟨0x600001, 0x6FFFFF⟩) Config.memSize ||
     mapOrdered (moved .utext ⟨0x700001, 0x7FFFFF⟩) Config.memSize ||
     mapOrdered (moved .uheap ⟨0x800001, 0xCFFFFF⟩) Config.memSize ||
     mapOrdered (moved .ustack ⟨0xCFFFFF, 0xFFFFFF⟩) Config.memSize ||
     mapOrdered Config.bounds 0xFFFFFF ||
     mapOrdered Config.bounds 0x100000001) = false := by decide

/-! ### Decode: words written out bit by bit -/

/-- I-type (R93): op8, imm14, rs, rd; op8 by R104. -/
theorem test_decode_arith_imm :
    decodeWord 0b00010000_00000000000101_00011_00001#32 = .ok (.addImm 1#5 3#5 5#14) ∧
    decodeWord 0b00010010_00000000000110_00011_00001#32 = .ok (.addsImm 1#5 3#5 6#14) ∧
    decodeWord 0b00010100_00000000000111_00011_00001#32 = .ok (.subImm 1#5 3#5 7#14) ∧
    decodeWord 0b00010110_00000000001000_00011_00001#32 = .ok (.subsImm 1#5 3#5 8#14) ∧
    decodeWord 0b00011000_11111111111111_11111_00000#32 = .ok (.cmpImm 31#5 0x3FFF#14) := by decide

/-- R-type (R94): op8, 9 ignored bits, rs1, rs2, rd; op8 by R104. -/
theorem test_decode_arith_reg :
    decodeWord 0b00010001_000000000_00011_00010_00001#32 = .ok (.addReg 1#5 3#5 2#5) ∧
    decodeWord 0b00010011_000000001_00011_00010_00001#32 = .ok (.addsReg 1#5 3#5 2#5) ∧
    decodeWord 0b00010101_000000010_00011_00010_00001#32 = .ok (.subReg 1#5 3#5 2#5) ∧
    decodeWord 0b00010111_000000011_00011_00010_00001#32 = .ok (.subsReg 1#5 3#5 2#5) ∧
    decodeWord 0b00011001_000000000_00100_11110_00111#32 = .ok (.cmpReg 4#5 30#5) ∧
    decodeWord 0b00011011_000000000_00011_00010_00001#32 = .ok (.mul 1#5 3#5 2#5) ∧
    decodeWord 0b00011101_000000000_00011_00010_11111#32 = .ok (.div 31#5 3#5 2#5) := by decide

/-- I-type (R93), the logic and shift rows of R104. -/
theorem test_decode_logic_imm :
    decodeWord 0b00100000_00000000100001_01001_01010#32 = .ok (.orImm 10#5 9#5 33#14) ∧
    decodeWord 0b00100010_00000000100010_01001_01010#32 = .ok (.andImm 10#5 9#5 34#14) ∧
    decodeWord 0b00100100_00000000100011_01001_01010#32 = .ok (.xorImm 10#5 9#5 35#14) ∧
    decodeWord 0b00100110_00000000100100_01001_01010#32 = .ok (.notImm 10#5 9#5 36#14) ∧
    decodeWord 0b00101000_00000000100101_01001_01010#32 = .ok (.lslImm 10#5 9#5 37#14) ∧
    decodeWord 0b00101010_00000000100110_01001_01010#32 = .ok (.lsrImm 10#5 9#5 38#14) ∧
    decodeWord 0b00101100_00000000100111_01001_01010#32 = .ok (.asrImm 10#5 9#5 39#14) := by decide

/-- R-type (R94), the logic and shift rows of R104. -/
theorem test_decode_logic_reg :
    decodeWord 0b00100001_000000000_01011_01100_01101#32 = .ok (.orReg 13#5 11#5 12#5) ∧
    decodeWord 0b00100011_000000000_01011_01100_01101#32 = .ok (.andReg 13#5 11#5 12#5) ∧
    decodeWord 0b00100101_000000000_01011_01100_01101#32 = .ok (.xorReg 13#5 11#5 12#5) ∧
    decodeWord 0b00100111_000000000_01011_01100_01101#32 = .ok (.notReg 13#5 11#5 12#5) ∧
    decodeWord 0b00101001_000000000_01011_01100_01101#32 = .ok (.lslReg 13#5 11#5 12#5) ∧
    decodeWord 0b00101011_000000000_01011_01100_01101#32 = .ok (.lsrReg 13#5 11#5 12#5) ∧
    decodeWord 0b00101101_000000000_01011_01100_01101#32 = .ok (.asrReg 13#5 11#5 12#5) := by decide

/-- M-type (R95) with a nonzero simm9: op8, simm9, rb, ignored index, rd. -/
theorem test_decode_memory_imm :
    decodeWord 0b01000000_111111111_00011_11110_00001#32 = .ok (.ld 1#5 3#5 (.imm 511#9)) ∧
    decodeWord 0b01000001_111111110_00011_11110_00001#32 = .ok (.ldh 1#5 3#5 (.imm 510#9)) ∧
    decodeWord 0b01000010_111111101_00011_11110_00001#32 = .ok (.ldb 1#5 3#5 (.imm 509#9)) ∧
    decodeWord 0b01000100_111111100_00011_11110_00001#32 = .ok (.str 1#5 3#5 (.imm 508#9)) ∧
    decodeWord 0b01000101_111111011_00011_11110_00001#32 = .ok (.strh 1#5 3#5 (.imm 507#9)) ∧
    decodeWord 0b01000110_111111010_00011_11110_00001#32 = .ok (.strb 1#5 3#5 (.imm 506#9)) := by decide

/-- M-type (R95, R102) with the sentinel 0: the index register of bits 9:5. -/
theorem test_decode_memory_index :
    decodeWord 0b01000000_000000000_00011_00111_00001#32 = .ok (.ld 1#5 3#5 (.index 7#5)) ∧
    decodeWord 0b01000001_000000000_00011_01000_00001#32 = .ok (.ldh 1#5 3#5 (.index 8#5)) ∧
    decodeWord 0b01000010_000000000_00011_01001_00001#32 = .ok (.ldb 1#5 3#5 (.index 9#5)) ∧
    decodeWord 0b01000100_000000000_00011_01010_00001#32 = .ok (.str 1#5 3#5 (.index 10#5)) ∧
    decodeWord 0b01000101_000000000_00011_01011_00001#32 = .ok (.strh 1#5 3#5 (.index 11#5)) ∧
    decodeWord 0b01000110_000000000_00011_01100_00001#32 = .ok (.strb 1#5 3#5 (.index 12#5)) := by decide

/-- Bi-type (R96) and Bu-type (R97). -/
theorem test_decode_branch :
    decodeWord 0b01100000_100000000000000000000000#32 = .ok (.b 0x800000#24) ∧
    decodeWord 0b01100001_111111111111111111111111#32 = .ok (.call 0xFFFFFF#24) ∧
    decodeWord 0b01100010_000000000_00101_0000000000#32 = .ok (.br 5#5) ∧
    decodeWord 0b01100011_000000000_11101_0000000000#32 = .ok (.ret 29#5) := by decide

/-- Bc-type (R98): op8, off19, cond; the conditions by R103. -/
theorem test_decode_conditional :
    decodeWord 0b01100100_1111111111111111110_00000#32 = .ok (.bEq 0x7fffe#19) ∧
    decodeWord 0b01100100_1111111111111111101_00001#32 = .ok (.bNe 0x7fffd#19) ∧
    decodeWord 0b01100100_1111111111111111100_00010#32 = .ok (.bOv 0x7fffc#19) ∧
    decodeWord 0b01100100_1111111111111111011_00011#32 = .ok (.bNv 0x7fffb#19) ∧
    decodeWord 0b01100100_1111111111111111010_00100#32 = .ok (.bMi 0x7fffa#19) ∧
    decodeWord 0b01100100_1111111111111111001_00101#32 = .ok (.bPz 0x7fff9#19) ∧
    decodeWord 0b01100100_1111111111111111000_00110#32 = .ok (.bCc 0x7fff8#19) ∧
    decodeWord 0b01100100_1111111111111110111_00111#32 = .ok (.bCs 0x7fff7#19) ∧
    decodeWord 0b01100100_1111111111111110110_01000#32 = .ok (.bGt 0x7fff6#19) ∧
    decodeWord 0b01100100_1111111111111110101_01001#32 = .ok (.bGe 0x7fff5#19) ∧
    decodeWord 0b01100100_1111111111111110100_01010#32 = .ok (.bLt 0x7fff4#19) ∧
    decodeWord 0b01100100_1111111111111110011_01011#32 = .ok (.bLe 0x7fff3#19) := by decide

/-- S-type (R99): op8, sub, 4 ignored bits, rs, 5 ignored bits, rd; the sub-opcodes by R105. -/
theorem test_decode_system :
    decodeWord 0b11110000_00000_0000_00000_00000_00000#32 = .ok .syscall ∧
    decodeWord 0b11110000_00001_0000_00000_00000_00000#32 = .ok .hlt ∧
    decodeWord 0b11110000_00010_0000_00000_00000_00000#32 = .ok .si ∧
    decodeWord 0b11110000_00011_0000_00000_00000_00000#32 = .ok .di ∧
    decodeWord 0b11110000_00100_0000_00000_00000_00000#32 = .ok .eret ∧
    decodeWord 0b11110000_00101_0000_00000_00000_00111#32 = .ok (.ldir 7#5) ∧
    decodeWord 0b11110000_00110_0000_00001_00000_00000#32 = .ok (.mvcstr 1#5) ∧
    decodeWord 0b11110000_00111_0000_00000_00000_00010#32 = .ok (.ldcstr 2#5) ∧
    decodeWord 0b11110000_01000_0000_00000_00000_00110#32 = .ok (.resr 6#5) ∧
    decodeWord 0b11110000000001111111111111111111#32 = .ok .syscall ∧
    decodeWord 0b00000000_111111111111111111111111#32 = .ok .nop ∧
    decodeWord 0b00000000_000000000000000000000000#32 = .ok .nop := by decide
/-- The three OP_ERROR cases of R107, and a list too short to hold a word. -/
theorem test_decode_errors :
    decodeWord 0x01000000#32 = .error (.unmappedOpcode 1#8) ∧ decodeWord 0x1A000000#32 = .error (.unmappedOpcode 0x1A#8) ∧
    decodeWord 0xF0F80000#32 = .error (.unmappedSubOpcode 31#5) ∧ decodeWord 0x6400001F#32 = .error (.unmappedCondition 31#5) ∧
    decodeBytes [0#8, 0#8, 0#8] = .error .truncated := by decide

/-- No two rows of a table have one number (R111). -/
theorem test_tables_distinct :
    (opcodeTable.map Prod.fst).Nodup ∧ (subOpcodeTable.map Prod.fst).Nodup ∧ (condTable.map Prod.fst).Nodup ∧
    opcodeTable.length = 39 := by decide

/-- Bit 24 alone selects the form (R92): 0x18 is CMP (imm), 0x19 is CMP (reg). -/
theorem test_mode_bit : Config.opc .cmpI = 0x18#8 ∧ Config.opc .cmpR = 0x19#8 ∧ Config.opc .mul = 0x1B#8 ∧
    Config.opc .div = 0x1D#8 := by decide

/-- Bytes are read little-endian (R51), and what follows the word is handed back (R90). -/
theorem test_decode_bytes : decodeBytes [0x41#8, 0x0C#8, 0x00#8, 0x1B#8, 0x77#8] = .ok (.mul 1#5 3#5 2#5, [0x77#8]) := by decide

/-- The table's numbering: bit 0 is the word's least significant bit. -/
theorem test_decode_table_word :
    decodeTableWord 32 0x11000000 = some (.addReg 0#5 0#5 0#5) ∧ decodeTableWord 32 0x63007400 = some (.ret 29#5) ∧
    decodeTableWord 32 0xFF000000 = none := by decide

/-- The encoder against the assembler's words of the spec's programs. -/
theorem test_encode :
    encode (.addImm 1#5 30#5 5#14) = 0x100017C1#32 ∧ encode (.str 4#5 3#5 (.index 30#5)) = 0x44000FC4#32 ∧
    encode (.ld 6#5 3#5 (.imm 4#9)) = 0x40020FC6#32 ∧ encode (.bNe 0x7FFFE#19) = 0x64FFFFC1#32 ∧
    encode .eret = 0xF0200000#32 ∧ encode (.mvcstr 1#5) = 0xF0300400#32 := by decide

/-! ### One small test per instruction (expected values: 95_test_vectors.md sections 1 to 6) -/

/-- The state an outcome holds; the reset state where it holds none. -/
def stateOf (o : Host.Outcome State Fault Refusal) : State :=
  match o with
  | .next s => s
  | .fault _ | .refused _ => State.reset

/-- One instruction on a state. -/
def run (i : Instr) (s : State) : State := stateOf (exec i s)

/-- A kernel state with `pc = cur + 4` for `cur = 0x100000`, r2 and r3 given. -/
def kern (a b : Word) : State := putReg 2#5 a (putReg 3#5 b { State.reset with status := .running, pc := 0x100004#32 })

/-- A user state with `cur = 0x700000`, r2 and r3 given. -/
def user (a b : Word) : State := { kern a b with cstr := 0#16, pc := 0x700004#32 }

/-- The active process-state cell holds `p`. -/
def cell (p : Nat) (s : State) : State := { s with mem := Memory.writeLE s.mem 0x200000 4 p }

/-- Register r1 after an R-form instruction on r2 and r3. -/
def r1After (i : RegIdx → RegIdx → RegIdx → Instr) (a b : Word) : Word := readReg 1#5 (run (i 1#5 2#5 3#5) (kern a b))

/-- CSTR after an R-form instruction on r2 and r3 in kernel mode (PRIV is bit 5). -/
def cstrAfter (i : RegIdx → RegIdx → RegIdx → Instr) (a b : Word) : Half := (run (i 1#5 2#5 3#5) (kern a b)).cstr

theorem test_nop : run .nop (kern 1#32 2#32) = kern 1#32 2#32 := by decide
theorem test_add : r1After .addReg 0xFFFFFFFF#32 2#32 = 1#32 ∧ readReg 1#5 (run (.addImm 1#5 2#5 0x3FFF#14) (kern 1#32 0#32)) = 0x4000#32 := by
  decide
theorem test_add_to_r30 : readReg 30#5 (run (.addReg 30#5 2#5 3#5) (kern 5#32 5#32)) = 0#32 := by decide
theorem test_adds_s1 : r1After .addsReg 0x7FFFFFFF#32 1#32 = 0x80000000#32 ∧ cstrAfter .addsReg 0x7FFFFFFF#32 1#32 = 0x26#16 := by decide
theorem test_adds_flags :
    cstrAfter .addsReg 0xFFFFFFFF#32 1#32 = 0x29#16 ∧ cstrAfter .addsReg 0x80000000#32 0x80000000#32 = 0x2B#16 ∧
    (run (.addsImm 30#5 2#5 1#14) (kern 0xFFFFFFFF#32 0#32)).cstr = 0x29#16 := by decide
theorem test_sub : r1After .subReg 3#32 5#32 = 0xFFFFFFFE#32 ∧ readReg 1#5 (run (.subImm 1#5 2#5 5#14) (kern 3#32 0#32)) = 0xFFFFFFFE#32 := by
  decide
theorem test_subs_flags :
    cstrAfter .subsReg 0#32 0#32 = 0x29#16 ∧ cstrAfter .subsReg 1#32 2#32 = 0x24#16 ∧
    cstrAfter .subsReg 0x80000000#32 1#32 = 0x23#16 ∧ cstrAfter .subsReg 0#32 0x80000000#32 = 0x26#16 := by decide
theorem test_subs_imm : readReg 1#5 (run (.subsImm 1#5 2#5 3#14) (kern 5#32 0#32)) = 2#32 ∧
    (run (.subsImm 1#5 2#5 3#14) (kern 5#32 0#32)).cstr = 0x21#16 := by decide
theorem test_cmp : run (.cmpReg 2#5 3#5) (kern 0xFFFFFFFF#32 0xFFFFFFFF#32) = { kern 0xFFFFFFFF#32 0xFFFFFFFF#32 with cstr := 0x29#16 } ∧
    (run (.cmpImm 2#5 2#14) (kern 1#32 0#32)).cstr = 0x24#16 := by decide
theorem test_mul : r1After .mul 0x12345678#32 0x9ABCDEF0#32 = 0x242D2080#32 ∧ r1After .mul 0xFFFFFFFF#32 0xFFFFFFFF#32 = 1#32 := by
  decide
theorem test_div : r1After .div 0xFFFFFFFF#32 7#32 = 0x24924924#32 ∧ r1After .div 0x80000000#32 0xFFFFFFFF#32 = 0#32 := by decide
theorem test_div_zero : run (.div 2#5 2#5 30#5) (kern 9#32 0#32) = fatal .divZero (kern 9#32 0#32) := by decide
theorem test_or : r1After .orReg 0x12340000#32 0x5678#32 = 0x12345678#32 ∧ readReg 1#5 (run (.orImm 1#5 2#5 0x1678#14) (kern 0x12340000#32 0#32)) = 0x12341678#32 := by
  decide
theorem test_and : r1After .andReg 0xF0F0F0F0#32 0xFF00FF00#32 = 0xF000F000#32 ∧ readReg 1#5 (run (.andImm 1#5 2#5 0x3FFF#14) (kern 0xFFFFFFFF#32 0#32)) = 0x3FFF#32 := by
  decide
theorem test_xor : r1After .xorReg 0xF0F0F0F0#32 0xFF00FF00#32 = 0x0FF00FF0#32 ∧ readReg 1#5 (run (.xorImm 1#5 2#5 3#14) (kern 6#32 0#32)) = 5#32 := by
  decide
theorem test_not : r1After .notReg 0x0000FFFF#32 0x1234#32 = 0xFFFF0000#32 ∧ readReg 1#5 (run (.notImm 1#5 2#5 9#14) (kern 0xFFFF#32 0#32)) = 0xFFFF0000#32 := by
  decide
theorem test_lsl : r1After .lslReg 0x80000001#32 33#32 = 2#32 ∧ readReg 1#5 (run (.lslImm 1#5 2#5 32#14) (kern 1#32 0#32)) = 1#32 := by decide
theorem test_lsr : r1After .lsrReg 0x80000000#32 31#32 = 1#32 ∧ readReg 1#5 (run (.lsrImm 1#5 2#5 4#14) (kern 0x80000000#32 0#32)) = 0x08000000#32 := by
  decide
theorem test_asr : r1After .asrReg 0x80000000#32 31#32 = 0xFFFFFFFF#32 ∧ readReg 1#5 (run (.asrImm 1#5 2#5 4#14) (kern 0x80000000#32 0#32)) = 0xF8000000#32 := by
  decide

/-- A kernel state with the bytes 22 11 44 33 at 0x200104 and r3 = 0x200100 (program P2). -/
def p2 : State := { kern 0x33441122#32 0x200100#32 with mem := Memory.writeLE [] 0x200104 4 0x33441122 }

theorem test_ld : readReg 6#5 (run (.ld 6#5 3#5 (.imm 4#9)) p2) = 0x33441122#32 := by decide
theorem test_ld_negative_offset : readReg 3#5 (run (.ld 3#5 3#5 (.imm 0x1FC#9)) p2) = 0#32 := by decide
theorem test_ldh : readReg 5#5 (run (.ldh 5#5 3#5 (.imm 6#9)) p2) = 0x3344#32 := by decide
theorem test_ldb : readReg 4#5 (run (.ldb 4#5 3#5 (.imm 5#9)) p2) = 0x11#32 := by decide
theorem test_ldb_data_abort : (run (.ldb 2#5 2#5 (.index 30#5)) (user 0x100000#32 0#32)).esr = 0x0426#16 := by decide
theorem test_str : (run (.str 2#5 3#5 (.imm 4#9)) { p2 with mem := [] }).mem =
    [(0x200104, 0x22#8), (0x200105, 0x11#8), (0x200106, 0x44#8), (0x200107, 0x33#8)] := by decide
theorem test_str_user_heap_overflow :
    (run (.str 1#5 2#5 (.index 30#5)) (user 0xCFFFFE#32 0#32)).esr = 0x0423#16 ∧
    (run (.str 1#5 2#5 (.index 30#5)) (user 0xCFFFFE#32 0#32)).mem = [] := by decide
theorem test_strh : (run (.strh 2#5 3#5 (.index 30#5)) { p2 with mem := [] }).mem = [(0x200100, 0x22#8), (0x200101, 0x11#8)] := by decide
theorem test_strb : (run (.strb 2#5 3#5 (.imm 8#9)) { p2 with mem := [] }).mem = [(0x200108, 0x22#8)] := by decide
theorem test_strb_const : (run (.strb 1#5 2#5 (.index 30#5)) (user 0x580000#32 0#32)).esr = 0x0428#16 := by decide

/-- The kernel state with `cur` given. -/
def at_ (c : Word) (s : State) : State := { s with pc := c + 4#32 }

theorem test_b : (run (.b 0xFFFFFE#24) (at_ 0x100008#32 (kern 0#32 0#32))).pc = 0x100000#32 := by decide
theorem test_call : (run (.call 3#24) (at_ 0x100004#32 (kern 0#32 0#32))).pc = 0x100010#32 ∧
    readReg 29#5 (run (.call 3#24) (at_ 0x100004#32 (kern 0#32 0#32))) = 0x100008#32 := by decide
theorem test_br_sp : (run (.br 31#5) { kern 0#32 0#32 with sp := 0x400010#32 }).pc = 0x400010#32 := by decide
theorem test_ret : (run (.ret 2#5) (kern 0x100008#32 0#32)).pc = 0x100008#32 := by decide

/-- Which of the twelve conditional branches by one word are taken under these flags, in the order of R103. -/
def taken (c o n z : Bool) : List Bool :=
  [Instr.bEq 2#19, .bNe 2#19, .bOv 2#19, .bNv 2#19, .bMi 2#19, .bPz 2#19, .bCc 2#19, .bCs 2#19, .bGt 2#19, .bGe 2#19,
    .bLt 2#19, .bLe 2#19].map
    (fun i => (run i { kern 0#32 0#32 with cstr := putFlags 0x20#16 ⟨c, o, n, z⟩ }).pc == 0x100008#32)

/-- Rows of S2's table: each condition true in one and false in another. -/
theorem test_conditions :
    taken false false false false = [false, true, false, true, false, true, true, false, true, true, false, false] ∧
    taken true false false true = [true, false, false, true, false, true, false, true, false, true, false, true] ∧
    taken false true false false = [false, true, true, false, false, true, true, false, false, false, true, true] ∧
    taken true true true true = [true, false, true, false, true, false, false, true, false, true, false, true] := by decide
theorem test_bcc_backwards : (run (.bNe 0x7FFFE#19) (at_ 0x100010#32 (kern 0#32 0#32))).pc = 0x100008#32 := by decide

theorem test_syscall : (run .syscall (putReg 0#5 0x12345#32 (cell 0x201000 (user 0#32 0#32)))).esr = 0x2345#16 ∧
    Memory.readLE (run .syscall (cell 0x201000 (user 0#32 0#32))).mem 0x20100A 4 = 0x700004 := by decide +kernel
theorem test_hlt : (run .hlt (kern 0#32 0#32)).status = .halted ∧ (run .hlt (kern 0#32 0#32)).outbox = [.haltedClean] := by decide
theorem test_hlt_io : (run .hlt { kern 0#32 0#32 with cstr := 0xA0#16 }).status = .ioWait := by
  have h : run .hlt { kern 0#32 0#32 with cstr := 0xA0#16 } = stageIo { kern 0#32 0#32 with cstr := 0xA0#16 } := rfl
  rw [h, stageIo]
  split <;> rfl
theorem test_si : (run .si (kern 0#32 0#32)).cstr = 0x30#16 ∧ (run .si (user 0#32 0#32)).esr = 0x300#16 := by decide
theorem test_di : (run .di { kern 0#32 0#32 with cstr := 0x30#16 }).cstr = 0x20#16 := by decide
theorem test_eret :
    (run .eret { cell 0x201000 (kern 0#32 0#32) with mem := Memory.writeLE (cell 0x201000 (kern 0#32 0#32)).mem 0x20100A 4 0x700000 }).pc =
      0x700000#32 := by decide +kernel
theorem test_eret_no_process : run .eret (kern 0#32 0#32) = fatal .eretNoProcess (kern 0#32 0#32) := by decide
theorem test_ldir : readReg 7#5 (run (.ldir 7#5) (at_ 0xFF004#32 (kern 0#32 0#32))) = 0xFF008#32 := by decide
theorem test_mvcstr : (run (.mvcstr 2#5) (kern 0xFFFF#32 0#32)).cstrLatch = 0xFFFF#16 ∧
    (run .nop (run (.mvcstr 2#5) (kern 0xFFFF#32 0#32))).cstr = 0x7FFF#16 := by decide
theorem test_ldcstr : readReg 2#5 (run (.ldcstr 2#5) { kern 0#32 0#32 with cstr := 0x29#16 }) = 0x29#32 := by decide
theorem test_resr : readReg 6#5 (run (.resr 6#5) { kern 0#32 0#32 with esr := 7#16 }) = 7#32 := by decide

/-! ### The cycle -/

/-- One step of a state with a word placed where it fetches. -/
def stepped (s : State) (w : Nat) : State := stateOf (step (s.withFetchWord 32 w))

/-- From reset, a placed word runs as the first instruction (P1's first word). -/
theorem test_first_word : readReg 1#5 (stepped State.reset 0x100017C1) = 5#32 ∧ (stepped State.reset 0x100017C1).pc = 0x100004#32 := by
  decide +kernel

/-- E4: an unmapped word in kernel mode is fatal; E3: in user mode sub 9 is an invalid instruction. -/
theorem test_invalid_opcode :
    (stepped State.reset 0x01000000).outbox = [.deliverFatal .kernelInvalidOpcode] ∧
    (stepped (user 0#32 0#32) 0xF0480000).esr = 0x200#16 := by decide +kernel

/-- E6 and E7: a user fetch across an edge, and from KTEXT. -/
theorem test_fetch_errors :
    (stateOf (step { cell 0x201000 (user 0#32 0#32) with pc := 0x7FFFFE#32 })).esr = 0x0121#16 ∧
    Memory.readLE (stateOf (step { cell 0x201000 (user 0#32 0#32) with pc := 0x7FFFFE#32 })).mem 0x20100A 4 = 0x800002 ∧
    (stateOf (step { user 0#32 0#32 with pc := 0x100000#32 })).esr = 0x0127#16 := by decide +kernel

/-- Reset waits for the host (R310); `resume(entry)` starts it (R296). -/
theorem test_reset_waits : step State.reset = .fault .halted ∧
    (stateOf (step { State.reset with hostInputs := [.resume 0x100000#32] })).pc = 0x100000#32 := ⟨rfl, rfl⟩

/-! ### Witnesses: for each statement with hypotheses, a state and operands that meet them, at boundary values -/

theorem witness_DecodeOfEncodeIsTheInstruction :
    Instr.wf .nop = true ∧ Instr.wf (.strb 31#5 31#5 (.imm 0x1FF#9)) = true ∧ Instr.wf (.ld 0#5 0#5 (.index 0#5)) = true := by decide

theorem witness_IgnoredBitsDoNotChangeTheInstruction :
    decodeWord 0x1B000C41#32 = .ok (.mul 1#5 3#5 2#5) ∧ decodeWord 0xF0400006#32 = .ok (.resr 6#5) := by decide

theorem witness_MulAndDivWriteTheUnsignedResult : readReg 3#5 (kern 9#32 1#32) ≠ 0#32 ∧ readReg 3#5 (kern 9#32 0xFFFFFFFF#32) ≠ 0#32 := by
  decide

theorem witness_DivisionByZeroIsFatal : readReg 30#5 (user 9#32 1#32) = 0#32 ∧ readReg 3#5 (kern 9#32 0#32) = 0#32 := by decide

/-- Both ends of every clause; the clauses exclude each other. -/
theorem witness_UserReadAndWriteSets :
    (UserWritable 0x500000 ∧ UserWritable 0x57FFFF ∧ UserWritable 0x6FFFFF ∧ UserWritable 0xCFFFFF ∧ UserWritable 0xFFFFFF) ∧
    (InRegion .utext 0x700000 ∧ InRegion .utext 0x7FFFFF) ∧ (InRegion .uconst 0x580000 ∧ InRegion .uconst 0x5FFFFF) ∧
    (¬UserWritable 0xD00000 ∧ ¬InRegion .utext 0xD00000 ∧ ¬InRegion .uconst 0xD00000) ∧
    (¬UserWritable 0x4FFFFF ∧ ¬InRegion .utext 0x4FFFFF ∧ ¬InRegion .uconst 0x4FFFFF) := by
  unfold UserWritable
  refine ⟨⟨?_, ?_, ?_, ?_, ?_⟩, ?_, ?_, ?_, ?_⟩ <;> decide

theorem witness_KernelWriteSet :
    (Config.lo .kdata ≤ 0x200000 ∧ 0x200000 < Config.memSize) ∧ (Config.lo .kdata ≤ 0xFFFFFF ∧ 0xFFFFFF < Config.memSize) ∧
    InRegion .ktext 0x100000 ∧ InRegion .ktext 0x1FFFFF ∧ 0xFFFFF < Config.lo .ktext ∧ Config.memSize ≤ 0x1000000 := by decide

theorem witness_AccessWithoutCrossingStaysInItsRegion : InRegion .kheap 0x3DFFFC ∧ crossing 0x3DFFFC 4 = false ∧ 3 < 4 := by decide

theorem witness_WriteThenReadReturnsTheValue :
    ∃ m' x, Memory.wf [] = true ∧ checkedWrite 0xFFFFFC#32 .word 0x33441122#32 .user [] = .ok m' ∧
      checkedRead .data 0xFFFFFC#32 .word .user m' = .ok x := ⟨_, _, rfl, rfl, rfl⟩

/-- One boundary address per clause: the last byte of the region, with two bytes to write. -/
theorem witness_CrossingWriteFailsByItsRegion :
    (writeStart 0x3DFFFF .kernel = none ∧ crossing 0x3DFFFF 2 = true ∧ InRegion .kheap 0x3DFFFF) ∧
    (writeStart 0x3FFFFF .kernel = none ∧ crossing 0x3FFFFF 2 = true ∧ InRegion .kstack 0x3FFFFF) ∧
    (writeStart 0x2FFFFF .kernel = none ∧ crossing 0x2FFFFF 2 = true ∧ ¬InRegion .kheap 0x2FFFFF ∧ ¬InRegion .kstack 0x2FFFFF) ∧
    (writeStart 0xCFFFFF .user = none ∧ crossing 0xCFFFFF 2 = true ∧ InRegion .uheap 0xCFFFFF) ∧
    (writeStart 0xFFFFFF .user = none ∧ crossing 0xFFFFFF 2 = true ∧ InRegion .ustack 0xFFFFFF) ∧
    (writeStart 0x57FFFF .user = none ∧ crossing 0x57FFFF 2 = true ∧ ¬InRegion .uheap 0x57FFFF ∧ ¬InRegion .ustack 0x57FFFF) := by decide

/-- The last word, half word and byte of USTACK. -/
theorem witness_LoadsWriteTheZeroExtendedBytes :
    ((effAddr 2#5 (.index 30#5) (regFileAccess (user 0xFFFFFC#32 0#32))).toNat = 0xFFFFFC ∧
      readStart 0xFFFFFC (committedPriv (user 0xFFFFFC#32 0#32)) = none ∧ crossing 0xFFFFFC 4 = false) ∧
    ((effAddr 2#5 (.imm 1#9) (regFileAccess (user 0xFFFFFD#32 0#32))).toNat = 0xFFFFFE ∧
      readStart 0xFFFFFE (committedPriv (user 0xFFFFFD#32 0#32)) = none ∧ crossing 0xFFFFFE 2 = false) ∧
    ((effAddr 2#5 (.index 3#5) (regFileAccess (user 0xFFFFFE#32 1#32))).toNat = 0xFFFFFF ∧
      readStart 0xFFFFFF (committedPriv (user 0xFFFFFE#32 1#32)) = none) := by decide

/-- The first word of KDATA in kernel mode, and the last half word and byte of USTACK in user mode. -/
theorem witness_StoresWriteExactlyTheirBytes :
    (Memory.wf (kern 0x200000#32 0#32).mem = true ∧
      (effAddr 2#5 (.index 30#5) (regFileAccess (kern 0x200000#32 0#32))).toNat = 0x200000 ∧
      writeStart 0x200000 (committedPriv (kern 0x200000#32 0#32)) = none ∧ crossing 0x200000 4 = false) ∧
    ((effAddr 2#5 (.index 30#5) (regFileAccess (user 0xFFFFFE#32 0#32))).toNat = 0xFFFFFE ∧
      writeStart 0xFFFFFE (committedPriv (user 0xFFFFFE#32 0#32)) = none ∧ crossing 0xFFFFFE 2 = false) ∧
    ((effAddr 2#5 (.imm 0x1FF#9) (regFileAccess (user 0x1000000#32 0#32))).toNat = 0xFFFFFF ∧
      writeStart 0xFFFFFF (committedPriv (user 0x1000000#32 0#32)) = none) := by decide

theorem witness_KernelAccessErrorsAreFatal :
    committedPriv (kern 0x3FFFFF#32 0#32) = .kernel ∧
    checkedRead .data (effAddr 2#5 (.index 30#5) (regFileAccess (kern 0x3FFFFF#32 0#32))) .word .kernel [] = .error .kOverread ∧
    checkedRead .data (effAddr 2#5 (.index 30#5) (regFileAccess (kern 0x3FFFFF#32 0#32))) .half .kernel [] = .error .kOverread ∧
    checkedRead .data (effAddr 2#5 (.index 30#5) (regFileAccess (kern 0x500000#32 0#32))) .byte .kernel [] = .error .kSectionRead ∧
    checkedWrite (effAddr 2#5 (.index 30#5) (regFileAccess (kern 0x3DFFFF#32 0#32))) .word 1#32 .kernel [] = .error .kHeapOverflow ∧
    checkedWrite (effAddr 2#5 (.index 30#5) (regFileAccess (kern 0x3FFFFF#32 0#32))) .half 1#32 .kernel [] = .error .kStackOverflow ∧
    checkedWrite (effAddr 2#5 (.index 30#5) (regFileAccess (kern 0x1FFFFF#32 0#32))) .byte 1#32 .kernel [] = .error .kTextWrite := by
  decide

/-- A user state with an active process-state record at `p`. -/
def proc (p : Nat) (a b : Word) : State := cell p (user a b)

theorem witness_PsWritable :
    PsWritable (proc 0 0#32 0#32) ∧ PsWritable (proc 0x201000 0#32 0#32) ∧ Memory.wf (proc 0x201000 0#32 0#32).mem = true ∧
    psPointer (proc 0x201000 0#32 0#32) = 0x201000#32 := by
  unfold PsWritable; decide +kernel

theorem witness_UserAccessErrorsAreDataAborts :
    committedPriv (proc 0x201000 0xFFFFFF#32 0#32) = .user ∧
    (∃ e, checkedRead .data (effAddr 2#5 (.index 30#5) (regFileAccess (proc 0x201000 0xFFFFFF#32 0#32))) .word .user
      (proc 0x201000 0xFFFFFF#32 0#32).mem = .error e) ∧
    (∃ e, checkedRead .data (effAddr 2#5 (.index 30#5) (regFileAccess (proc 0x201000 0xCFFFFF#32 0#32))) .half .user
      (proc 0x201000 0xCFFFFF#32 0#32).mem = .error e) ∧
    (∃ e, checkedRead .data (effAddr 2#5 (.index 30#5) (regFileAccess (proc 0x201000 0xD00000#32 0#32))) .byte .user
      (proc 0x201000 0xD00000#32 0#32).mem = .error e) ∧
    (∃ e, checkedWrite (effAddr 2#5 (.index 30#5) (regFileAccess (proc 0x201000 0xCFFFFD#32 0#32))) .word 7#32 .user
      (proc 0x201000 0xCFFFFD#32 0#32).mem = .error e) ∧
    (∃ e, checkedWrite (effAddr 2#5 (.index 30#5) (regFileAccess (proc 0x201000 0x580000#32 0#32))) .half 7#32 .user
      (proc 0x201000 0x580000#32 0#32).mem = .error e) ∧
    (∃ e, checkedWrite (effAddr 2#5 (.index 30#5) (regFileAccess (proc 0x201000 0x7FFFFF#32 0#32))) .byte 7#32 .user
      (proc 0x201000 0x7FFFFF#32 0#32).mem = .error e) := by
  refine ⟨by decide +kernel, ⟨.uOverread, ?_⟩, ⟨.uOverread, ?_⟩, ⟨.uSectionRead, ?_⟩, ⟨.uHeapOverflow, ?_⟩, ⟨.uConstWrite, ?_⟩,
    ⟨.uTextWrite, ?_⟩⟩ <;> decide +kernel

/-- The hypotheses are those of `witness_PsWritable`, in user and in kernel mode. -/
theorem witness_SyscallTakesItsException :
    Memory.wf (cell 0x201000 (kern 7#32 0#32)).mem = true ∧ PsWritable (cell 0x201000 (kern 7#32 0#32)) := by
  unfold PsWritable; decide +kernel

theorem witness_UserModePrivilegedInstructionsAreViolations :
    (proc 0x201000 0#32 0#32).priv = .user ∧ Memory.wf (proc 0x201000 0#32 0#32).mem = true ∧ PsWritable (proc 0x201000 0#32 0#32) ∧
    Instr.resr 6#5 ∈ [Instr.hlt, .si, .di, .eret, .ldir 6#5, .mvcstr 6#5, .ldcstr 6#5, .resr 6#5] := by
  unfold PsWritable; decide +kernel

/-- No record, a record in KDATA, and a record whose tag (at 0x4FFDCA + 566 = 0x500000) the kernel may not read. -/
theorem witness_PlainHaltReportsTheHaltCheck :
    (kern 0#32 0#32).priv = .kernel ∧ (committedCstr (kern 0#32 0#32)).getLsbD 7 = false ∧ psPointer (kern 0#32 0#32) = 0#32 ∧
    (psPointer (cell 0x201000 (kern 0#32 0#32)) ≠ 0#32 ∧
      readStart (psPointer (cell 0x201000 (kern 0#32 0#32)) + 566#32).toNat .kernel = none) ∧
    (psPointer (cell 0x4FFDCA (kern 0#32 0#32)) ≠ 0#32 ∧
      readStart (psPointer (cell 0x4FFDCA (kern 0#32 0#32)) + 566#32).toNat .kernel ≠ none) := by decide +kernel

theorem witness_IoHaltStagesTheDescriptor :
    State.priv { kern 0#32 0#32 with cstr := 0xA0#16 } = .kernel ∧
    (committedCstr { kern 0#32 0#32 with cstr := 0xA0#16 }).getLsbD 7 = true := by decide

/-- Kernel mode, for SI, DI, LDIR, LDCSTR, RESR and MVCSTR. -/
theorem witness_kernel_mode : (kern 0#32 0#32).priv = .kernel := by decide

/-- The first record whose saved address lies in readable memory, and one in KDATA. -/
theorem witness_EretRestoresPcAndUserMode :
    ∀ p ∈ [0xFEFF6, 0x201000], psPointer (cell p (kern 0#32 0#32)) ≠ 0#32 ∧
      readStart (psPointer (cell p (kern 0#32 0#32)) + 10#32).toNat .kernel = none ∧
      crossing (psPointer (cell p (kern 0#32 0#32)) + 10#32).toNat 4 = false := by decide +kernel

theorem witness_EretWithoutProcessIsFatal :
    psPointer (kern 0#32 0#32) = 0#32 ∧
    (psPointer (cell 0xFEFF5 (kern 0#32 0#32)) ≠ 0#32 ∧
      readStart (psPointer (cell 0xFEFF5 (kern 0#32 0#32)) + 10#32).toNat .kernel ≠ none) ∧
    (psPointer (cell 0x3FFFF3 (kern 0#32 0#32)) ≠ 0#32 ∧
      crossing (psPointer (cell 0x3FFFF3 (kern 0#32 0#32)) + 10#32).toNat 4 = true) := by decide +kernel

theorem witness_InstructionAfterMvcstrSplitsOldAndNew :
    (kern 0#32 0#32).priv = .kernel ∧ (∃ t, exec (.mvcstr 2#5) (kern 0#32 0#32) = .next t) ∧
    privOf (committedCstr (kern 0#32 0#32)) = .kernel := ⟨by decide, ⟨_, rfl⟩, by decide⟩

/-- A running kernel core at the last word of KTEXT, which holds `add r1, r30, #5`. -/
def loaded : State := { kern 0#32 0#32 with pc := 0x1FFFFC#32, mem := Memory.writeLE [] 0x1FFFFC 4 0x100017C1 }

theorem witness_runs : Runs loaded ∧ Runs { proc 0x201000 0#32 0#32 with status := .exception } := by
  unfold Runs; decide +kernel

theorem witness_StepRunsTheDecodedInstruction :
    Runs loaded ∧ fetchStart loaded.pc.toNat loaded.priv = none ∧ crossing loaded.pc.toNat 4 = false ∧
    decodeBytes [Memory.get loaded.mem loaded.pc.toNat, Memory.get loaded.mem (loaded.pc.toNat + 1),
      Memory.get loaded.mem (loaded.pc.toNat + 2), Memory.get loaded.mem (loaded.pc.toNat + 3)] = .ok (.addImm 1#5 30#5 5#14, []) := by
  unfold Runs; decide +kernel

/-- A state per clause: fatal, running, taking an exception, halted, waiting for IO. -/
theorem witness_EndOfCycleCountsAndHalts :
    (fatal .divZero loaded).fatalFlag = true ∧ (loaded.fatalFlag = false ∧ loaded.status = .running) ∧
    ({ loaded with status := .exception }.status = .exception) ∧ (State.reset.fatalFlag = false ∧ State.reset.status = .halted) ∧
    ({ loaded with status := .ioWait }.status = .ioWait) := by decide

/-- A kernel fetch below EVT and a user fetch across the end of UTEXT. -/
theorem witness_FetchErrorsByPrivilege :
    (Runs { loaded with pc := 0xFEFFF#32 } ∧ fetchWord { loaded with pc := 0xFEFFF#32 } = .error .kFetchSectionRead ∧
      State.priv { loaded with pc := 0xFEFFF#32 } = .kernel) ∧
    (Runs { proc 0x201000 0#32 0#32 with pc := 0x7FFFFD#32 } ∧
      fetchWord { proc 0x201000 0#32 0#32 with pc := 0x7FFFFD#32 } = .error .uOverread ∧
      State.priv { proc 0x201000 0#32 0#32 with pc := 0x7FFFFD#32 } = .user) := by
  unfold Runs; decide +kernel

/-- The unmapped word 0xFF000000 at the end of KTEXT in kernel mode, and in UTEXT in user mode. -/
theorem witness_InvalidOpcodesByPrivilege :
    (Runs { loaded with mem := Memory.writeLE [] 0x1FFFFC 4 0xFF000000 } ∧
      fetchWord { loaded with mem := Memory.writeLE [] 0x1FFFFC 4 0xFF000000 } = .ok 0xFF000000#32 ∧
      decodeWord 0xFF000000#32 = .error (.unmappedOpcode 0xFF#8)) ∧
    (Runs { user 0#32 0#32 with pc := 0x700000#32, mem := Memory.writeLE [] 0x700000 4 0xFF000000 } ∧
      fetchWord { user 0#32 0#32 with pc := 0x700000#32, mem := Memory.writeLE [] 0x700000 4 0xFF000000 } = .ok 0xFF000000#32 ∧
      Memory.wf (Memory.writeLE [] 0x700000 4 0xFF000000) = true ∧
      PsWritable { user 0#32 0#32 with pc := 0x700000#32, mem := Memory.writeLE [] 0x700000 4 0xFF000000 }) := by
  unfold Runs PsWritable; decide +kernel

/-- A record just below KDATA, and one whose saved address crosses the end of KHEAP. -/
theorem witness_DeliveryToAnUnwritableRecordIsFatal :
    (psPointer (cell 0x1FFFF5 (kern 0#32 0#32)) ≠ 0#32 ∧
      writeStart (psPointer (cell 0x1FFFF5 (kern 0#32 0#32)) + 10#32).toNat .kernel ≠ none) ∧
    (psPointer (cell 0x3DFFF3 (kern 0#32 0#32)) ≠ 0#32 ∧
      crossing (psPointer (cell 0x3DFFF3 (kern 0#32 0#32)) + 10#32).toNat 4 = true) := by decide +kernel

/-- A state per clause. -/
theorem witness_WaitingCoreTakesNoStep :
    (fatal .divZero loaded).fatalFlag = true ∧
    (loaded.fatalFlag = false ∧ loaded.hostInputs = [] ∧ { loaded with paused := true }.paused = true) ∧
    (State.reset.fatalFlag = false ∧ State.reset.hostInputs = [] ∧ State.reset.paused = false ∧ State.reset.status = .halted) ∧
    ({ State.reset with status := .ioWait }.status = .ioWait) := by decide

/-- A waiting core with the four bytes at 0x200000 staged. -/
def waiting : State := { State.reset with status := .ioWait, ioRequest := some ⟨1#32, 0x200000#32, 4#32⟩ }

/-- A state per clause: halted, waiting, running, taking an exception. -/
theorem witness_HostCallsChangeOnlyWhatTheyName :
    State.reset.fatalFlag = false ∧ State.reset.status = .halted ∧ waiting.fatalFlag = false ∧ waiting.status = .ioWait ∧
    loaded.fatalFlag = false ∧ loaded.status = .running ∧ { loaded with status := .exception }.status = .exception := by decide

/-- Both ends of the memory buffer while HALTED; both ends of the staged window, and the bytes beside it, while IO_WAIT; the
first address past the memory buffer, alone and inside a staged window that reaches past it; a running core. -/
theorem witness_HostWritesOnlyWhileTheCoreWaits :
    (State.reset.status = .halted ∧ (0#32).toNat < Config.memSize ∧ (0xFFFFFF#32).toNat < Config.memSize) ∧
    (waiting.status = .ioWait ∧ waiting.ioRequest = some ⟨1#32, 0x200000#32, 4#32⟩ ∧
      (0x200000#32).toNat ≤ (0x200003#32).toNat ∧ (0x200003#32).toNat < (0x200000#32).toNat + (4#32).toNat) ∧
    Config.memSize = (0x1000000#32).toNat ∧
    ({ waiting with ioRequest := some ⟨1#32, 0xFFFFFC#32, 8#32⟩ }.status = .ioWait ∧
      (0x1000000#32).toNat < (0xFFFFFC#32).toNat + (8#32).toNat) ∧
    { waiting with ioRequest := none }.status = .ioWait ∧ loaded.status = .running ∧ { loaded with status := .exception }.status = .exception ∧
    (0x1FFFFF#32).toNat < (0x200000#32).toNat ∧ (0x200000#32).toNat + (4#32).toNat ≤ (0x200004#32).toNat ∧
    Memory.wf waiting.mem = true ∧ waiting.fatalFlag = false ∧
    { waiting with hostInputs := [.write 0x200003#32 7#8] }.hostInputs = .write 0x200003#32 7#8 :: [] := by decide

/-- A running state that meets the invariant and has a next state. -/
theorem witness_StepKeepsTheInvariant : loaded.Inv ∧ ∃ t, step loaded = .next t :=
  ⟨{ linkZero := by decide, cstrTop := by decide, latch := .inr (by decide), memWf := by decide, memInBuffer := by decide,
     counter := fun _ => Nat.succ_pos _, staged := fun h => absurd h (by decide), reported := by decide }, ⟨_, rfl⟩⟩

/-- A user core at a SYSCALL, with an active record. -/
def atSyscall : State := { proc 0x201000 0#32 0#32 with pc := 0x700000#32, mem := Memory.writeLE (proc 0x201000 0#32 0#32).mem 0x700000 4 0xF0000000 }

/-- A kernel core at an ERET, with an active record. -/
def atEret : State := { cell 0x201000 loaded with mem := Memory.writeLE (cell 0x201000 loaded).mem 0x1FFFFC 4 0xF0200000 }

theorem witness_PrivilegeChangesOnlyByDeliveryEretOrCommit :
    (atSyscall.cstrLatch.getLsbD 15 = false ∧ atSyscall.priv = .user ∧ ∃ t, step atSyscall = .next t ∧ t.priv = .kernel) ∧
    (atEret.cstrLatch.getLsbD 15 = false ∧ atEret.priv = .kernel ∧ ∃ t, step atEret = .next t ∧ t.priv = .user) :=
  ⟨⟨by decide, by decide, _, rfl, by decide +kernel⟩, ⟨by decide, by decide, _, rfl, by decide +kernel⟩⟩

/-- The bytes beside the record's slots are not in them, and not the user's. -/
theorem witness_UserStepsChangeOnlyUserMemory :
    Memory.wf atSyscall.mem = true ∧ atSyscall.priv = .user ∧ atSyscall.cstrLatch.getLsbD 15 = false ∧ atSyscall.hostInputs = [] ∧
    (∃ t, step atSyscall = .next t) ∧
    (∀ a ∈ [0x201009, 0x20100E, 0x201235, 0x201237], ¬UserWritable a ∧ ¬InPsSlots atSyscall a) := by
  refine ⟨by decide +kernel, by decide, by decide, rfl, ⟨_, rfl⟩, ?_⟩
  unfold UserWritable InPsSlots
  decide +kernel

/-- Two memories that differ in a byte the user may not read. -/
theorem witness_UserRegistersDoNotDependOnKernelMemory :
    atSyscall.priv = .user ∧ atSyscall.cstrLatch.getLsbD 15 = false ∧ atSyscall.hostInputs = [] ∧
    (∀ a : Nat, readStart a .user = none → Memory.get (Memory.set atSyscall.mem 0x3FFFFF 7#8) a = Memory.get atSyscall.mem a) ∧
    (∃ t, step atSyscall = .next t) ∧ ∃ t, step { atSyscall with mem := Memory.set atSyscall.mem 0x3FFFFF 7#8 } = .next t := by
  refine ⟨by decide, by decide, rfl, ?_, ⟨_, rfl⟩, ⟨_, rfl⟩⟩
  intro a ha
  have hne : a ≠ 0x3FFFFF := by
    rintro rfl
    exact absurd ha (by decide)
  have h := Memory.get_set (m := atSyscall.mem) (by decide +kernel) 0x3FFFFF a 7#8
  rwa [if_neg hne] at h

/-- A step of each kind: with the flags kept, with a pending value committed, at a CMP, and an action of the host. -/
theorem witness_FlagsChangeInTwoWaysOnly :
    (∃ t, step loaded = .next t) ∧
    (∃ t, step { loaded with cstrLatch := 0x802F#16 } = .next t ∧ flagsOf t.cstr = flagsOf 0x802F#16) ∧
    (∃ t, step { loaded with mem := Memory.writeLE [] 0x1FFFFC 4 0x19000000 } = .next t ∧ flagsOf t.cstr = flagsOf 0x9#16) ∧
    (∃ t, step { loaded with hostInputs := [.pause] } = .next t) ∧
    (setsFlags .si = false ∧ ∃ t, exec .si loaded = .next t) ∧ setsFlags (.cmpImm 2#5 0#14) = true ∧
    { loaded with cstrLatch := 0x8000#16 }.cstrLatch.getLsbD 15 = true :=
  ⟨⟨_, rfl⟩, ⟨_, rfl, by decide +kernel⟩, ⟨_, rfl, by decide +kernel⟩, ⟨_, rfl⟩, ⟨rfl, _, rfl⟩, rfl, by decide⟩

/-- Records whose saved address lies in KTEXT, whose tag lies past the buffer, whose saved address lies below EVT, and whose
tag lies past SYSLIB. -/
theorem witness_record_errors :
    (psPointer (proc 0x1FFFF5 0#32 0#32) ≠ 0#32 ∧
      checkedWrite (psPointer (proc 0x1FFFF5 0#32 0#32) + 10#32) .word 0x700004#32 .kernel (proc 0x1FFFF5 0#32 0#32).mem =
        .error .kTextWrite) ∧
    (∃ m, checkedWrite (psPointer (proc 0xFFFDCA 0#32 0#32) + 10#32) .word 0x700004#32 .kernel (proc 0xFFFDCA 0#32 0#32).mem = .ok m ∧
      checkedWrite (psPointer (proc 0xFFFDCA 0#32 0#32) + 566#32) .byte 3#32 .kernel m = .error .kSectionWrite) ∧
    checkedRead .data (psPointer (cell 0xFEFF5 (kern 0#32 0#32)) + 10#32) .word .kernel (cell 0xFEFF5 (kern 0#32 0#32)).mem =
      .error .kSectionRead ∧
    checkedRead .data (psPointer (cell 0x4FFDCA (kern 0#32 0#32)) + 566#32) .byte .kernel (cell 0x4FFDCA (kern 0#32 0#32)).mem =
      .error .kSectionRead := by
  refine ⟨by decide +kernel, ⟨_, rfl, ?_⟩, ?_, ?_⟩ <;> decide +kernel

/-- Beside the fetch errors and the record errors above: a load and a store that fail, with nothing pending. -/
theorem witness_MemoryErrorsLeadToAbortsOrFatalFaults :
    (user 0xFFFFFF#32 0#32).priv = .user ∧ (kern 0x1FFFFF#32 0#32).priv = .kernel ∧
    (user 0xFFFFFF#32 0#32).cstrLatch.getLsbD 15 = false ∧ (kern 0x1FFFFF#32 0#32).cstrLatch.getLsbD 15 = false ∧
    checkedRead .data (effAddr 2#5 (.index 30#5) (user 0xFFFFFF#32 0#32)) .half .user [] = .error .uOverread ∧
    checkedWrite (effAddr 2#5 (.index 30#5) (kern 0x1FFFFF#32 0#32)) .byte 0#32 .kernel [] = .error .kTextWrite := by decide

end Sys2Proof.Tests
end

section
/-! PROOFS. The register write by its index (R22), and the two ways in which the condition flags change (R26). -/

namespace Sys2Proof.Machine

/-! ### The register write, by index (R22) -/

/-- A write to index 30 is dropped (R22, R23). -/
theorem putReg_thirty (v : Word) (s : State) : putReg 30#5 v s = s := rfl

/-- Index 31 names SP (R20, R22). -/
theorem putReg_thirtyOne (v : Word) (s : State) : putReg 31#5 v s = { s with sp := v } := rfl

/-- Any index but 30 and 31 names a general register (R20, R22). -/
theorem putReg_general {i : RegIdx} (h30 : i ≠ 30#5) (h31 : i ≠ 31#5) (v : Word) (s : State) :
    putReg i v s = { s with gpr := s.gpr.setIfInBounds i.toNat v } := by
  have hlt : i.toNat < 31 := by bv_omega
  have hset : s.gpr.setIfInBounds i.toNat v = s.gpr.set i.toNat v hlt := by
    ext k hk
    rw [Vector.getElem_setIfInBounds, Vector.getElem_set]
  rw [putReg, if_neg h30, dif_pos hlt, hset]

/-- Settles O5: after the commit, the three kinds of index in turn. -/
theorem registerWriteFollowsItsIndex : Obligations.RegisterWriteFollowsItsIndex := by
  intro i v s
  rw [writeReg]
  by_cases h30 : i = 30#5
  · rw [if_pos h30, h30, putReg_thirty]
  · rw [if_neg h30]
    by_cases h31 : i = 31#5
    · rw [if_pos h31, h31, putReg_thirtyOne]
    · rw [if_neg h31, putReg_general h30 h31]

/-! ### The condition flags: what leaves them alone (R26) -/

/-- The flags of `t` are those of `s`, or those of the CSTR value pending in `s`. -/
def FlagsKeptOrCommitted (s t : State) : Prop :=
  flagsOf t.cstr = flagsOf s.cstr ∨ (s.cstrLatch.getLsbD 15 = true ∧ flagsOf t.cstr = flagsOf s.cstrLatch)

@[simp] theorem flagsOf_cstrSet_priv (x : Half) (v : Bool) : flagsOf (cstrSet x .priv v) = flagsOf x := by
  simp [flagsOf, cstrGet_cstrSet]

@[simp] theorem flagsOf_cstrSet_ie (x : Half) (v : Bool) : flagsOf (cstrSet x .ie v) = flagsOf x := by
  simp [flagsOf, cstrGet_cstrSet]

/-- Clearing the pending marker keeps the flags (R33, R40). -/
theorem flagsOf_and_clearPending (x : Half) : flagsOf (x &&& 0x7FFF#16) = flagsOf x := by
  simp [flagsOf, cstrGet, Config.cstrPos]

/-- A commit replaces the flags by the pending value's; with nothing pending they stay (R26, R40). -/
theorem FlagsKeptOrCommitted.of_committed {s t : State} (h : flagsOf t.cstr = flagsOf (committedCstr s)) :
    FlagsKeptOrCommitted s t := by
  rw [committedCstr] at h
  cases hp : s.cstrLatch.getLsbD 15 with
  | false =>
    rw [hp] at h
    exact .inl h
  | true =>
    rw [hp, if_pos rfl, flagsOf_and_clearPending] at h
    exact .inr ⟨hp, h⟩

/-- The commit check leaves nothing pending (R40). -/
theorem regFileAccess_not_pending (s : State) : (regFileAccess s).cstrLatch.getLsbD 15 = false := by
  rw [regFileAccess_cstrLatch, committedLatch_not_pending]

/-- A register write with nothing pending keeps CSTR (R22, R40). -/
theorem writeReg_cstr_of_not_pending {s : State} (h : s.cstrLatch.getLsbD 15 = false) (i : RegIdx) (v : Word) :
    (writeReg i v s).cstr = s.cstr := by
  rw [writeReg, putReg_cstr, regFileAccess_of_not_pending h]

/-- Delivery of an exception writes PRIV of CSTR and no flag (R280, R282). -/
@[simp] theorem flagsOf_deliver (e : GuestException) (s : State) : flagsOf (deliver e s).cstr = flagsOf s.cstr := by
  rcases deliver_cases e s with ⟨_, h⟩ | ⟨_, _, _, _, _, h⟩ | ⟨_, _, _, h⟩ | ⟨_, _, _, _, _, h⟩ <;> simp [h]

@[simp] theorem flagsOf_accessError (e : MemoryError) (s : State) :
    flagsOf (accessError e s).cstr = flagsOf s.cstr := by
  rcases accessError_cases e s with ⟨_, h⟩ | ⟨_, h⟩ <;> simp [h]

@[simp] theorem flagsOf_fetchError (e : MemoryError) (s : State) : flagsOf (fetchError e s).cstr = flagsOf s.cstr := by
  unfold fetchError
  split <;> simp

@[simp] theorem flagsOf_invalidOpcode (s : State) : flagsOf (invalidOpcode s).cstr = flagsOf s.cstr := by
  unfold invalidOpcode
  split <;> simp

/-- The exception return writes PRIV of CSTR and no flag (R248). -/
@[simp] theorem flagsOf_returnFromException (s : State) :
    flagsOf (returnFromException s).cstr = flagsOf s.cstr := by
  rcases returnFromException_cases s with ⟨_, h⟩ | ⟨_, _, _, h⟩ | ⟨_, _, _, h⟩ <;> simp [h]

/-- Neither flavour of halt touches CSTR (R243, R244). -/
@[simp] theorem haltEffect_cstr (s : State) : (haltEffect s).cstr = s.cstr := by
  unfold haltEffect
  split
  · unfold stageIo
    split <;> simp
  · simp [plainHalt]

@[simp] theorem flagsOf_load (w : Width) (rd rb : RegIdx) (off : MemOffset) (s : State) :
    flagsOf (load w rd rb off s).cstr = flagsOf (committedCstr s) := by
  rcases load_cases w rd rb off s with ⟨_, _, h⟩ | ⟨_, _, h⟩ <;> simp [h]

@[simp] theorem flagsOf_store (w : Width) (rdata rb : RegIdx) (off : MemOffset) (s : State) :
    flagsOf (store w rdata rb off s).cstr = flagsOf (committedCstr s) := by
  rcases store_cases w rdata rb off s with ⟨_, _, h⟩ | ⟨_, _, h⟩ <;> simp [h]

@[simp] theorem aluImm_cstr (op : AluOp) (rd rs : RegIdx) (imm14 : BitVec 14) (s : State) :
    (aluImm op rd rs imm14 s).cstr = committedCstr s := by
  obtain ⟨_, _, hcstr, _⟩ := aluImm_effect op rd rs imm14 s
  exact hcstr

@[simp] theorem aluReg_cstr (op : AluOp) (rd rs1 rs2 : RegIdx) (s : State) :
    (aluReg op rd rs1 rs2 s).cstr = committedCstr s := by
  obtain ⟨_, _, hcstr, _⟩ := aluReg_effect op rd rs1 rs2 s
  exact hcstr

@[simp] theorem branchCond_cstr (c : Cond) (off19 : BitVec 19) (s : State) :
    (branchCond c off19 s).cstr = committedCstr s := by
  unfold branchCond
  simp only
  split <;> simp

/-- A privileged sub-opcode whose effect leaves the committed flags alone (R125, R127). In user mode the privilege
violation comes before the commit, so that the old flags stay. -/
theorem privileged_keepsOrCommits_flags {effect : State → State} {s : State}
    (heffect : flagsOf (effect (regFileAccess s)).cstr = flagsOf (committedCstr s)) :
    FlagsKeptOrCommitted s (privileged effect s) := by
  cases hp : s.priv with
  | user =>
    rw [privileged_user effect hp]
    exact .inl (flagsOf_deliver _ s)
  | kernel =>
    rw [privileged_kernel effect hp]
    exact .of_committed heffect

/-- DIV in both outcomes: the quotient written, or the fatal fault of a zero divisor (R153, R168). -/
theorem execDiv_cstr (rd rs1 rs2 : RegIdx) (s : State) :
    ∃ t, execDiv rd rs1 rs2 s = .next t ∧ t.cstr = committedCstr s := by
  unfold execDiv
  simp only
  split
  · exact ⟨_, rfl, by simp⟩
  · exact ⟨_, rfl, by simp⟩

/-- An instruction other than ADDS, SUBS and CMP completes with the old flags or the committed ones (R26). -/
theorem exec_keepsOrCommits_flags {i : Instr} (hi : setsFlags i = false) (s : State) :
    ∃ t, exec i s = .next t ∧ FlagsKeptOrCommitted s t := by
  cases i with
  | addsImm | addsReg | subsImm | subsReg | cmpImm | cmpReg => cases hi
  | nop => exact ⟨_, rfl, .of_committed (by simp)⟩
  | addImm | subImm | orImm | andImm | xorImm | notImm | lslImm | lsrImm | asrImm =>
    exact ⟨_, rfl, .of_committed (by rw [aluImm_cstr])⟩
  | addReg | subReg | orReg | andReg | xorReg | notReg | lslReg | lsrReg | asrReg | mul =>
    exact ⟨_, rfl, .of_committed (by rw [aluReg_cstr])⟩
  | div rd rs1 rs2 =>
    obtain ⟨t, ht, hcstr⟩ := execDiv_cstr rd rs1 rs2 s
    exact ⟨t, ht, .of_committed (by rw [hcstr])⟩
  | ld | ldh | ldb => exact ⟨_, rfl, .of_committed (flagsOf_load ..)⟩
  | str | strh | strb => exact ⟨_, rfl, .of_committed (flagsOf_store ..)⟩
  | b | br | ret => exact ⟨_, rfl, .of_committed (by simp [branchReg])⟩
  | call =>
    refine ⟨_, rfl, .of_committed ?_⟩
    rw [writeReg_cstr_of_not_pending, regFileAccess_cstr]
    exact regFileAccess_not_pending s
  | bEq | bNe | bOv | bNv | bMi | bPz | bCc | bCs | bGt | bGe | bLt | bLe =>
    exact ⟨_, rfl, .of_committed (by rw [branchCond_cstr])⟩
  | syscall => exact ⟨_, rfl, .of_committed (by simp)⟩
  | hlt | si | di | eret | ldir | mvcstr | ldcstr | resr =>
    exact ⟨_, rfl, privileged_keepsOrCommits_flags (by simp)⟩

/-! ### The condition flags: what writes them, and what reads them (R26) -/

/-- ADDS leaves the flags of its sum: its write-back finds nothing left to commit (R163, R40). -/
theorem flagsOf_addWithFlags (rd : RegIdx) (a b : Word) (s : State) :
    flagsOf (addWithFlags rd a b (regFileAccess s)).cstr = flagsAdd a b (alu .add a b) := by
  rw [addWithFlags, writeReg_cstr_of_not_pending (s := writeFlags _ _) (regFileAccess_not_pending s), writeFlags_cstr,
    flagsOf_putFlags]

/-- SUBS leaves the flags of its difference: its write-back finds nothing left to commit (R165, R40). -/
theorem flagsOf_subWithFlags (rd : RegIdx) (a b : Word) (s : State) :
    flagsOf (subWithFlags rd a b (regFileAccess s)).cstr = flagsSub a b (alu .sub a b) := by
  rw [subWithFlags, writeReg_cstr_of_not_pending (s := writeFlags _ _) (regFileAccess_not_pending s), writeFlags_cstr,
    flagsOf_putFlags]

/-- CMP leaves the flags of the difference (R166). -/
theorem flagsOf_compareFlags (a b : Word) (s : State) :
    flagsOf (compareFlags a b s).cstr = flagsSub a b (alu .sub a b) := by
  rw [compareFlags, writeFlags_cstr, flagsOf_putFlags]

/-- ADDS, SUBS and CMP complete, and the flags they leave are made from the registers alone (R26, R160). -/
theorem exec_flags_eq_of_same_registers {i : Instr} (hi : setsFlags i = true) {s t : State}
    (hregs : ∀ j, readReg j t = readReg j s) :
    ∃ u v, exec i s = .next u ∧ exec i t = .next v ∧ flagsOf v.cstr = flagsOf u.cstr := by
  cases i with
  | addsImm | addsReg => exact ⟨_, _, rfl, rfl, by simp [flagsOf_addWithFlags, hregs]⟩
  | subsImm | subsReg => exact ⟨_, _, rfl, rfl, by simp [flagsOf_subWithFlags, hregs]⟩
  | cmpImm | cmpReg => exact ⟨_, _, rfl, rfl, by simp [flagsOf_compareFlags, hregs]⟩
  | _ => cases hi

theorem exec_condInstr (c : Cond) (off19 : BitVec 19) (s : State) :
    exec (condInstr c off19) s = .next (branchCond c off19 s) := by
  cases c <;> rfl

/-- A conditional branch tests the live flags, before the commit (R126, R227, R228). -/
theorem branchCond_pc (c : Cond) (off19 : BitVec 19) (s : State) :
    (branchCond c off19 s).pc = bccTarget (condHolds c (flagsOf s.cstr)) off19 s := by
  cases h : condHolds c (flagsOf s.cstr) <;> simp [branchCond, bccTarget, cur, offsetBc, h]

/-! ### What a step can do (R120, R143) -/

/-- A core that takes a step is not blocked, and the step is its cycle (R120, R295). -/
theorem coreStep_next {s t : State} (h : coreStep s = .next t) : blocked s = none ∧ cycle s = .next t := by
  unfold coreStep at h
  split at h
  next => cases h
  next hb => exact ⟨hb, h⟩

/-- A step is an action of the host, or the host does nothing and the core, not blocked, takes a cycle; either way no
fatal fault has happened (R143, R290). -/
theorem step_cases {s t : State} (h : step s = .next t) :
    s.fatalFlag = false ∧
    ((∃ a rest, s.hostInputs = a :: rest ∧ a ≠ .run ∧ hostAct a { s with hostInputs := rest } = .next t) ∨
    ((∀ a rest, s.hostInputs = a :: rest → a = .run) ∧ blocked s = none ∧
      cycle { s with hostInputs := s.hostInputs.tail } = .next t)) := by
  unfold step at h
  split at h
  · cases h
  next hfatal =>
    refine ⟨Bool.eq_false_of_not_eq_true hfatal, ?_⟩
    split at h
    next hnil =>
      obtain ⟨hblocked, hcycle⟩ := coreStep_next h
      have htail : { s with hostInputs := s.hostInputs.tail } = s := by rw [hnil, List.tail_nil, ← hnil]
      exact .inr ⟨by simp [hnil], hblocked, by rw [htail]; exact hcycle⟩
    next rest hrun =>
      obtain ⟨hblocked, hcycle⟩ := coreStep_next h
      rw [hrun]
      exact .inr ⟨by simp +contextual, hblocked, hcycle⟩
    next a rest hne hact => exact .inl ⟨a, rest, hact, hne, h⟩

/-- A cycle takes a fetch error or OP_ERROR, or runs the instruction it fetched (R120). -/
theorem cycle_cases {s t : State} (h : cycle s = .next t) :
    (∃ e, fetchWord (beginCycle s) = .error e ∧ t = endOfCycle (fetchError e (advance (beginCycle s)))) ∨
    (∃ w e, fetchWord (beginCycle s) = .ok w ∧ decodeWord w = .error e ∧
      t = endOfCycle (invalidOpcode (advance (beginCycle s)))) ∨
    (∃ w i u, fetchWord (beginCycle s) = .ok w ∧ decodeWord w = .ok i ∧ exec i (advance (beginCycle s)) = .next u ∧
      t = endOfCycle u) := by
  unfold cycle at h
  simp only at h
  split at h
  next e hf =>
    cases h
    exact .inl ⟨e, hf, rfl⟩
  next w hf =>
    split at h
    next e hd =>
      cases h
      exact .inr (.inl ⟨w, e, hf, hd, rfl⟩)
    next i hd =>
      cases hx : exec i (advance (beginCycle s)) with
      | next u =>
        rw [hx] at h
        cases h
        exact .inr (.inr ⟨w, i, u, hf, hd, hx, rfl⟩)
      | fault | refused =>
        rw [hx] at h
        cases h

/-- The host never writes CSTR (R296, R297). -/
theorem hostAct_cstr {a : HostInput} {s t : State} (h : hostAct a s = .next t) : t.cstr = s.cstr := by
  cases a with
  | run | pause | unpause =>
    cases h
    rfl
  | resume | acknowledge =>
    cases h
    simp
  | write =>
    unfold hostAct at h
    simp only at h
    split at h <;> cases h
    rfl

/-- The start of a cycle leaves the fetch as it is (R121). -/
theorem fetchWord_beginCycle (s : State) : fetchWord (beginCycle s) = fetchWord s := by
  simp [fetchWord, State.priv]

/-- A cycle that runs no ADDS, SUBS or CMP keeps the flags or commits the pending ones (R26). -/
theorem cycle_flags {s t : State} (h : cycle s = .next t) :
    FlagsKeptOrCommitted s t ∨ ∃ w i, fetchWord s = .ok w ∧ decodeWord w = .ok i ∧ setsFlags i = true := by
  rcases cycle_cases h with ⟨e, _, rfl⟩ | ⟨w, e, _, _, rfl⟩ | ⟨w, i, u, hfetch, hdecode, hexec, rfl⟩
  · exact .inl (.inl (by simp))
  · exact .inl (.inl (by simp))
  · cases hi : setsFlags i with
    | true => exact .inr ⟨w, i, fetchWord_beginCycle s ▸ hfetch, hdecode, hi⟩
    | false =>
      obtain ⟨u', hexec', hflags⟩ := exec_keepsOrCommits_flags hi (advance (beginCycle s))
      obtain rfl : u = u' := by
        rw [hexec] at hexec'
        injection hexec'
      exact .inl (by simpa [FlagsKeptOrCommitted] using hflags)

/-- The first clause of R26, on one step. -/
theorem step_flags {s t : State} (h : step s = .next t) :
    FlagsKeptOrCommitted s t ∨ ((∀ a rest, s.hostInputs = a :: rest → a = .run) ∧
      ∃ w i, fetchWord s = .ok w ∧ decodeWord w = .ok i ∧ setsFlags i = true) := by
  obtain ⟨_, ⟨a, rest, _, _, hact⟩ | ⟨hrun, _, hcycle⟩⟩ := step_cases h
  · exact .inl (.inl (by rw [hostAct_cstr hact]))
  · rcases cycle_flags hcycle with hkept | hsets
    · exact .inl hkept
    · exact .inr ⟨hrun, hsets⟩

/-- Settles O60, clause by clause: the step, the other instructions, ADDS, SUBS and CMP, the commit, the branches. -/
theorem flagsChangeInTwoWaysOnly : Obligations.FlagsChangeInTwoWaysOnly := by
  refine ⟨fun s t h => ?step, fun i s t hi h => ?others, fun i s f hi => ?setters, fun s hp => ?commit,
    fun c off s => ⟨_, exec_condInstr c off s, branchCond_pc c off s⟩⟩
  case step => exact or_assoc.mp (step_flags h)
  case others =>
    obtain ⟨u, hu, hflags⟩ := exec_keepsOrCommits_flags hi s
    obtain rfl : t = u := by
      rw [h] at hu
      injection hu
    exact hflags
  case setters => exact exec_flags_eq_of_same_registers hi (readReg_congr rfl rfl)
  case commit => rw [regFileAccess_cstr, committedCstr, if_pos hp]

end Sys2Proof.Machine
end

section
/-! PROOFS. Decoding: every word the encoder makes decodes back (R93 to R105, R111), the three cases of OP_ERROR (R107), and
the bits that do not matter (R108). -/

namespace Sys2Proof

/-! ### Decoding an encoded word, format by format -/

/-- A word whose opcode byte is that of `y` is decoded by the row of `y` (R104, R110). -/
theorem decodeWord_of_fieldOp8 {w : Word} {y : Sym} (h : fieldOp8 w = Config.opc y) : decodeWord w = symInstr y w := by
  rw [decodeWord, h, opcodeTable_lookup_opc]

theorem decodeWord_encodeI (y : Sym) (imm14 : BitVec 14) (rs rd : RegIdx) :
    decodeWord (encodeI (Config.opc y) imm14 rs rd) = symInstr y (encodeI (Config.opc y) imm14 rs rd) :=
  decodeWord_of_fieldOp8 (fieldOp8_encodeI ..)

theorem decodeWord_encodeR (y : Sym) (rs1 rs2 rd : RegIdx) :
    decodeWord (encodeR (Config.opc y) rs1 rs2 rd) = symInstr y (encodeR (Config.opc y) rs1 rs2 rd) :=
  decodeWord_of_fieldOp8 (fieldOp8_encodeR ..)

theorem decodeWord_encodeBi (y : Sym) (off24 : BitVec 24) :
    decodeWord (encodeBi (Config.opc y) off24) = symInstr y (encodeBi (Config.opc y) off24) :=
  decodeWord_of_fieldOp8 (fieldOp8_encodeBi ..)

theorem decodeWord_encodeBu (y : Sym) (rs : RegIdx) :
    decodeWord (encodeBu (Config.opc y) rs) = symInstr y (encodeBu (Config.opc y) rs) :=
  decodeWord_of_fieldOp8 (fieldOp8_encodeBu ..)

theorem decodeWord_encodeM (y : Sym) (off : MemOffset) (rb rd : RegIdx) :
    decodeWord (encodeM (Config.opc y) off rb rd) = symInstr y (encodeM (Config.opc y) off rb rd) := by
  apply decodeWord_of_fieldOp8
  cases off with
  | imm simm9 => rw [fieldOp8_encodeM_imm]
  | index ri => rw [fieldOp8_encodeM_index]

theorem fieldRd_encodeM (op8 : BitVec 8) (off : MemOffset) (rb rd : RegIdx) : fieldRd (encodeM op8 off rb rd) = rd := by
  cases off with
  | imm simm9 => rw [fieldRd_encodeM_imm]
  | index ri => rw [fieldRd_encodeM_index]

theorem fieldRs1_encodeM (op8 : BitVec 8) (off : MemOffset) (rb rd : RegIdx) : fieldRs1 (encodeM op8 off rb rd) = rb := by
  cases off with
  | imm simm9 => rw [fieldRs1_encodeM_imm]
  | index ri => rw [fieldRs1_encodeM_index]

/-- An operand the encoding admits is read back (R102): an immediate of 0 would read as an index register. -/
theorem fieldMemOffset_encodeM {off : MemOffset} (h : off.wf = true) (op8 : BitVec 8) (rb rd : RegIdx) :
    fieldMemOffset (encodeM op8 off rb rd) = off := by
  cases off with
  | imm simm9 =>
    have hne : simm9 ≠ 0#9 := by simpa [MemOffset.wf] using h
    rw [fieldMemOffset, fieldSimm9_encodeM_imm, if_neg hne]
  | index ri => rw [fieldMemOffset, fieldSimm9_encodeM_index, if_pos rfl, fieldMid_encodeM_index]

/-- The condition of a Bc-type word is looked up by its number (R98, R103). -/
theorem decodeWord_encodeBc (c : Cond) (off19 : BitVec 19) : decodeWord (encodeBc c off19) = .ok (condInstr c off19) := by
  rw [decodeWord_of_fieldOp8 (y := .bcc) (fieldOp8_encodeBc ..), symInstr, fieldRd_encodeBc, condTable_lookup_condNumber,
    fieldOff19_encodeBc]

/-- The instruction of an S-type word is looked up by its sub-opcode (R99, R105). -/
theorem decodeWord_encodeS (y : SysSym) (rs rd : RegIdx) :
    decodeWord (encodeS y rs rd) = .ok (sysInstr y (encodeS y rs rd)) := by
  rw [decodeWord_of_fieldOp8 (y := .sys) (fieldOp8_encodeS ..), symInstr, fieldSub_encodeS, subOpcodeTable_lookup_subOpc]

/-- Settles O2: format by format, the table row is found and every field reads back. -/
theorem decodeOfEncodeIsTheInstruction : Obligations.DecodeOfEncodeIsTheInstruction := by
  intro i hi
  cases i with
  | nop => rw [encode, decodeWord_encodeBi, symInstr]
  | addImm | addsImm | subImm | subsImm | cmpImm | orImm | andImm | xorImm | notImm | lslImm | lsrImm | asrImm =>
    rw [encode, decodeWord_encodeI]
    simp [symInstr]
  | addReg | addsReg | subReg | subsReg | cmpReg | orReg | andReg | xorReg | notReg | lslReg | lsrReg | asrReg | mul | div =>
    rw [encode, decodeWord_encodeR]
    simp [symInstr]
  | ld | ldh | ldb | str | strh | strb =>
    rw [encode, decodeWord_encodeM, symInstr, fieldRd_encodeM, fieldRs1_encodeM, fieldMemOffset_encodeM hi]
  | b | call => rw [encode, decodeWord_encodeBi, symInstr, fieldOff24_encodeBi]
  | br | ret => rw [encode, decodeWord_encodeBu, symInstr, fieldRs1_encodeBu]
  | bEq | bNe | bOv | bNv | bMi | bPz | bCc | bCs | bGt | bGe | bLt | bLe =>
    rw [encode, decodeWord_encodeBc, condInstr]
  | syscall | hlt | si | di | eret => rw [encode, decodeWord_encodeS, sysInstr]
  | ldir | ldcstr | resr => rw [encode, decodeWord_encodeS, sysInstr, fieldRd_encodeS]
  | mvcstr => rw [encode, decodeWord_encodeS, sysInstr, fieldRs1_encodeS]

/-- Settles O1: each word is decoded by its row. -/
theorem specDecodeVectors : Obligations.SpecDecodeVectors := by
  unfold Obligations.SpecDecodeVectors
  decide

/-! ### The three cases of OP_ERROR (R107) -/

theorem opcodeTable_lookup_eq_none : ∀ op8 : BitVec 8, opcodeTable.lookup op8 = none ↔ op8 ∉ mappedBytes := by
  decide

theorem subOpcodeTable_lookup_eq_none : ∀ sub : BitVec 5, subOpcodeTable.lookup sub = none ↔ 9 ≤ sub.toNat := by
  decide

theorem condTable_lookup_eq_none : ∀ n : BitVec 5, condTable.lookup n = none ↔ 12 ≤ n.toNat := by
  decide

/-- A symbolic opcode other than Bcc and the system opcode decodes whatever the fields hold (R107). -/
theorem symInstr_error_iff (y : Sym) (w : Word) :
    (∃ e, symInstr y w = .error e) ↔
      (y = .sys ∧ subOpcodeTable.lookup (fieldSub w) = none) ∨ (y = .bcc ∧ condTable.lookup (fieldRd w) = none) := by
  cases y with
  | sys => cases h : subOpcodeTable.lookup (fieldSub w) <;> simp [symInstr, h]
  | bcc => cases h : condTable.lookup (fieldRd w) <;> simp [symInstr, h]
  | _ => simp [symInstr]

/-- Settles O3: by whether the opcode byte is in the table, and if so by its row. -/
theorem decodeErrorsAreExactlyTheThreeCases : Obligations.DecodeErrorsAreExactlyTheThreeCases := by
  intro w
  change _ ↔ (fieldOp8 w ∉ mappedBytes ∨ (fieldOp8 w = Config.opc .sys ∧ 9 ≤ (fieldSub w).toNat) ∨
    (fieldOp8 w = Config.opc .bcc ∧ 12 ≤ (fieldRd w).toNat))
  cases h : opcodeTable.lookup (fieldOp8 w) with
  | none =>
    have hunmapped := (opcodeTable_lookup_eq_none _).mp h
    exact ⟨fun _ => .inl hunmapped, fun _ => ⟨.unmappedOpcode (fieldOp8 w), by rw [decodeWord, h]⟩⟩
  | some y =>
    have hmapped : ¬fieldOp8 w ∉ mappedBytes := by simp [← opcodeTable_lookup_eq_none, h]
    have hrow : ∀ z, fieldOp8 w = Config.opc z ↔ y = z := fun z => by
      rw [← opcodeTable_lookup_eq_some, h, Option.some.injEq]
    rw [decodeWord_of_fieldOp8 ((hrow y).mpr rfl), symInstr_error_iff, subOpcodeTable_lookup_eq_none,
      condTable_lookup_eq_none, hrow, hrow]
    simp [hmapped]

/-! ### The bits that do not matter (R108) -/

/-- The word with the bits of `m` from `w` and the others from `v`. -/
def mergeBits (m w v : Word) : Word := (w &&& m) ||| (v &&& ~~~m)

/-- A field that lies in the mask is taken from the first word. -/
theorem extract_mergeBits {m : Word} {k n : Nat} (h : m.extractLsb' k n = BitVec.allOnes n) (w v : Word) :
    (mergeBits m w v).extractLsb' k n = w.extractLsb' k n := by
  ext i hi
  have hm : m.getLsbD (k + i) = true := by
    have hbit := congrArg (fun x => x.getLsbD i) h
    simpa [hi] using hbit
  simp [mergeBits, hm]

/-- Where every bit matters, the word is kept. -/
theorem mergeBits_allOnes (w v : Word) : mergeBits (BitVec.allOnes 32) w v = w := by
  unfold mergeBits
  rw [BitVec.and_allOnes, BitVec.not_allOnes, BitVec.and_zero, BitVec.or_zero]

/-- The bits of a word that matter, row by row of the top-level table (R108). -/
def rowCareMask (y : Sym) (w : Word) : Word :=
  match y with
  | .nop => 0xFF000000#32
  | .cmpI => 0xFFFFFFE0#32
  | .cmpR => 0xFF007FE0#32
  | .addR | .addsR | .subR | .subsR | .mul | .div | .orR | .andR | .xorR | .notR | .lslR | .lsrR | .asrR => 0xFF007FFF#32
  | .ld | .ldh | .ldb | .str | .strh | .strb => if fieldSimm9 w = 0#9 then BitVec.allOnes 32 else 0xFFFFFC1F#32
  | .br | .ret => 0xFF007C00#32
  | .sys =>
    if fieldSub w ∈ [5#5, 7#5, 8#5] then 0xFFF8001F#32 else if fieldSub w = 6#5 then 0xFFF87C00#32 else 0xFFF80000#32
  | .addI | .addsI | .subI | .subsI | .orI | .andI | .xorI | .notI | .lslI | .lsrI | .asrI | .b | .call | .bcc =>
    BitVec.allOnes 32

theorem careMask_eq_rowCareMask {w : Word} {y : Sym} (h : fieldOp8 w = Config.opc y) : careMask w = rowCareMask y w := by
  unfold careMask rowCareMask fieldSimm9 fieldSub
  rw [show w.extractLsb' 24 8 = Config.opc y from h]
  cases y with
  | ld | ldh | ldb | str | strh | strb =>
    by_cases h9 : w.extractLsb' 15 9 = 0#9
    · simp [Config.opc, h9]
    · simp [Config.opc, h9]
  | _ => rfl

/-- The opcode byte matters in every word (R108). -/
theorem fieldOp8_mergeBits (y : Sym) (w v : Word) : fieldOp8 (mergeBits (rowCareMask y w) w v) = fieldOp8 w := by
  apply extract_mergeBits
  cases y with
  | ld | ldh | ldb | str | strh | strb =>
    rw [rowCareMask]
    split <;> decide
  | sys =>
    rw [rowCareMask]
    split
    · decide
    · split <;> decide
  | _ =>
    rw [rowCareMask]
    decide

/-- The sub-opcode matters in every system word (R108). -/
theorem fieldSub_mergeBits_sys (w v : Word) : fieldSub (mergeBits (rowCareMask .sys w) w v) = fieldSub w := by
  apply extract_mergeBits
  rw [rowCareMask]
  split
  · decide
  · split <;> decide

/-- The register field a system instruction reads lies in its mask (R99, R108). -/
theorem sysInstr_mergeBits {z : SysSym} {w : Word} (h : fieldSub w = Config.subOpc z) (v : Word) :
    sysInstr z (mergeBits (rowCareMask .sys w) w v) = sysInstr z w := by
  rw [rowCareMask, h]
  cases z with
  | syscall | hlt | si | di | eret => rfl
  | mvcstr => exact congrArg Instr.mvcstr (extract_mergeBits (by decide) w v)
  | ldir => exact congrArg Instr.ldir (extract_mergeBits (by decide) w v)
  | ldcstr => exact congrArg Instr.ldcstr (extract_mergeBits (by decide) w v)
  | resr => exact congrArg Instr.resr (extract_mergeBits (by decide) w v)

/-- Every field a row reads lies in the row's mask (R108). -/
theorem symInstr_mergeBits (y : Sym) (w v : Word) : symInstr y (mergeBits (rowCareMask y w) w v) = symInstr y w := by
  cases y with
  | nop => rfl
  | cmpI | cmpR | br | ret =>
    simp (disch := decide) only [rowCareMask, symInstr, fieldMid, fieldImm14, fieldRs1, extract_mergeBits]
  | addR | addsR | subR | subsR | mul | div | orR | andR | xorR | notR | lslR | lsrR | asrR =>
    simp (disch := decide) only [rowCareMask, symInstr, fieldRd, fieldMid, fieldRs1, extract_mergeBits]
  | addI | addsI | subI | subsI | orI | andI | xorI | notI | lslI | lsrI | asrI | b | call | bcc =>
    rw [rowCareMask, mergeBits_allOnes]
  | ld | ldh | ldb | str | strh | strb =>
    by_cases h9 : fieldSimm9 w = 0#9
    · rw [rowCareMask, if_pos h9, mergeBits_allOnes]
    · have hkept : fieldSimm9 (mergeBits 0xFFFFFC1F#32 w v) = fieldSimm9 w := extract_mergeBits (by decide) w v
      rw [rowCareMask, if_neg h9]
      simp only [symInstr, fieldMemOffset, hkept, if_neg h9]
      simp (disch := decide) only [fieldRd, fieldRs1, extract_mergeBits]
  | sys =>
    rw [symInstr, symInstr, fieldSub_mergeBits_sys]
    cases hz : subOpcodeTable.lookup (fieldSub w) with
    | none => rfl
    | some z => exact congrArg Except.ok (sysInstr_mergeBits ((subOpcodeTable_lookup_eq_some _ z).mp hz) v)

/-- Settles O4: the word's row stays, and the row reads no ignored bit. -/
theorem ignoredBitsDoNotChangeTheInstruction : Obligations.IgnoredBitsDoNotChangeTheInstruction := by
  intro w v i h
  change decodeWord (mergeBits (careMask w) w v) = .ok i
  cases hy : opcodeTable.lookup (fieldOp8 w) with
  | none =>
    rw [decodeWord, hy] at h
    cases h
  | some y =>
    have hrow : fieldOp8 w = Config.opc y := (opcodeTable_lookup_eq_some _ y).mp hy
    rw [careMask_eq_rowCareMask hrow, decodeWord_of_fieldOp8 ((fieldOp8_mergeBits y w v).trans hrow), symInstr_mergeBits,
      ← decodeWord_of_fieldOp8 hrow, h]

end Sys2Proof
end

section
/-! PROOFS. The memory protection engine: the regions (R55 to R64), the crossing check (R65) and the checked accesses (R66, R67). -/

namespace Sys2Proof.Machine

/-! ### The bounds of the default map (R55)

One equation per bound: region arithmetic is `simp only [InRegion, region_bounds]` and `omega`. -/

/-- The bounds of every region of the default map (R55, D18). -/
theorem region_bounds :
    (Config.lo .evt = 0x000FF000 ∧ Config.hi .evt = 0x000FFFFF) ∧
    (Config.lo .ktext = 0x00100000 ∧ Config.hi .ktext = 0x001FFFFF) ∧
    (Config.lo .kdata = 0x00200000 ∧ Config.hi .kdata = 0x002FFFFF) ∧
    (Config.lo .kheap = 0x00300000 ∧ Config.hi .kheap = 0x003DFFFF) ∧
    (Config.lo .kstack = 0x003E0000 ∧ Config.hi .kstack = 0x003FFFFF) ∧
    (Config.lo .syslib = 0x00400000 ∧ Config.hi .syslib = 0x004FFFFF) ∧
    (Config.lo .ubss = 0x00500000 ∧ Config.hi .ubss = 0x0057FFFF) ∧
    (Config.lo .uconst = 0x00580000 ∧ Config.hi .uconst = 0x005FFFFF) ∧
    (Config.lo .udata = 0x00600000 ∧ Config.hi .udata = 0x006FFFFF) ∧
    (Config.lo .utext = 0x00700000 ∧ Config.hi .utext = 0x007FFFFF) ∧
    (Config.lo .uheap = 0x00800000 ∧ Config.hi .uheap = 0x00CFFFFF) ∧
    (Config.lo .ustack = 0x00F00000 ∧ Config.hi .ustack = 0x00FFFFFF) ∧ Config.memSize = 0x01000000 := by
  decide

/-! ### The start validators (R60 to R64) -/

theorem readStart_kernel (a : Nat) :
    readStart a .kernel = if 0x000FF000 ≤ a ∧ a ≤ 0x004FFFFF then none else some .kSectionRead := by
  simp only [readStart, InRegion, region_bounds]
  exact if_congr (by omega) rfl rfl

theorem fetchStart_kernel (a : Nat) :
    fetchStart a .kernel =
      if (0x000FF000 ≤ a ∧ a ≤ 0x002FFFFF) ∨ (0x00400000 ≤ a ∧ a ≤ 0x004FFFFF) then none else some .kFetchSectionRead := by
  simp only [fetchStart, InRegion, region_bounds]
  exact if_congr (by omega) rfl rfl

theorem fetchStart_user (a : Nat) :
    fetchStart a .user =
      if (0x00700000 ≤ a ∧ a ≤ 0x007FFFFF) ∨ (0x00400000 ≤ a ∧ a ≤ 0x004FFFFF) then none else some .uFetchSectionRead := by
  simp only [fetchStart, InRegion, region_bounds]

/-- Settles O18: the three validators with the default bounds put in. -/
theorem kernelReadAndFetchSets : Obligations.KernelReadAndFetchSets :=
  fun a => ⟨readStart_kernel a, fetchStart_kernel a, fetchStart_user a⟩

/-- The addresses user code may read (R62): SYSLIB, UBSS up to UHEAP, and USTACK. -/
def UserReadable (a : Nat) : Prop :=
  InRegion .syslib a ∨ (Config.lo .ubss ≤ a ∧ a ≤ Config.hi .uheap) ∨ InRegion .ustack a

theorem readStart_user_of_readable {a : Nat} (h : UserReadable a) : readStart a .user = none := by
  simp only [UserReadable, InRegion, region_bounds] at h
  simp only [readStart, region_bounds]
  rw [if_neg (by omega), if_neg (by omega)]

theorem readStart_user_of_not_readable {a : Nat} (h : ¬UserReadable a) : readStart a .user = some .uSectionRead := by
  simp only [UserReadable, InRegion, region_bounds] at h
  simp only [readStart, region_bounds]
  split
  · rfl
  · rw [if_pos (by omega)]

theorem readStart_user_eq_none (a : Nat) : readStart a .user = none ↔ UserReadable a := by
  by_cases h : UserReadable a
  · simp [readStart_user_of_readable h, h]
  · simp [readStart_user_of_not_readable h, h]

theorem writeStart_user_of_writable {a : Nat} (h : UserWritable a) : writeStart a .user = none := by
  simp only [UserWritable, InRegion, region_bounds] at h
  simp only [writeStart, InRegion, region_bounds]
  rw [if_neg (by omega), if_neg (by omega), if_neg (by omega)]

theorem writeStart_user_of_utext {a : Nat} (h : InRegion .utext a) : writeStart a .user = some .uTextWrite := by
  simp only [InRegion, region_bounds] at h
  simp only [writeStart, InRegion, region_bounds]
  rw [if_neg (by omega), if_pos (by omega)]

theorem writeStart_user_of_uconst {a : Nat} (h : InRegion .uconst a) : writeStart a .user = some .uConstWrite := by
  simp only [InRegion, region_bounds] at h
  simp only [writeStart, InRegion, region_bounds]
  rw [if_neg (by omega), if_neg (by omega), if_pos (by omega)]

theorem writeStart_user_of_elsewhere {a : Nat} (h : ¬UserWritable a) (htext : ¬InRegion .utext a)
    (hconst : ¬InRegion .uconst a) : writeStart a .user = some .uSectionWrite := by
  simp only [UserWritable, InRegion, region_bounds] at h htext hconst
  simp only [writeStart, InRegion, region_bounds]
  rw [if_pos (by omega)]

/-- User code may write nowhere but in UBSS, UDATA, UHEAP and USTACK (R64). -/
theorem writeStart_user_eq_none (a : Nat) : writeStart a .user = none ↔ UserWritable a := by
  refine ⟨fun h => ?_, writeStart_user_of_writable⟩
  by_contra hw
  by_cases htext : InRegion .utext a
  · simp [writeStart_user_of_utext htext] at h
  · by_cases hconst : InRegion .uconst a
    · simp [writeStart_user_of_uconst hconst] at h
    · simp [writeStart_user_of_elsewhere hw htext hconst] at h

/-- Settles O19: one lemma per clause. -/
theorem userReadAndWriteSets : Obligations.UserReadAndWriteSets := by
  refine fun a => ⟨?_, writeStart_user_of_writable, writeStart_user_of_utext, writeStart_user_of_uconst,
    writeStart_user_of_elsewhere⟩
  by_cases h : UserReadable a
  · rw [readStart_user_of_readable h]
    exact (if_pos h).symm
  · rw [readStart_user_of_not_readable h]
    exact (if_neg h).symm

theorem writeStart_kernel_of_writable {a : Nat} (hlo : Config.lo .kdata ≤ a) (hhi : a < Config.memSize) :
    writeStart a .kernel = none := by
  simp only [region_bounds] at hlo hhi
  simp only [writeStart, InRegion, region_bounds]
  rw [if_neg (by omega), if_neg (by omega), if_neg (by omega)]

theorem writeStart_kernel_of_ktext {a : Nat} (h : InRegion .ktext a) : writeStart a .kernel = some .kTextWrite := by
  rw [writeStart, if_pos h]

theorem writeStart_kernel_of_elsewhere {a : Nat} (h : a < Config.lo .ktext ∨ Config.memSize ≤ a) :
    writeStart a .kernel = some .kSectionWrite := by
  simp only [region_bounds] at h
  simp only [writeStart, InRegion, region_bounds]
  rw [if_neg (by omega)]
  split
  · rfl
  · rw [if_pos (by omega)]

/-- Settles O20: one lemma per clause. -/
theorem kernelWriteSet : Obligations.KernelWriteSet :=
  fun _ => ⟨writeStart_kernel_of_writable, writeStart_kernel_of_ktext, writeStart_kernel_of_elsewhere⟩

/-! ### The crossing check (R65) -/

/-- The byte past the last of a region is an edge (R59). -/
theorem hi_succ_mem_edges (r : Region) : Config.hi r + 1 ∈ edges := by
  have hr : r ∈ Config.regions := by cases r <;> decide
  exact List.mem_flatMap.mpr ⟨r, hr, by simp⟩

/-- Settles O21: to leave the region upwards, the access would cross the edge past its last byte. -/
theorem accessWithoutCrossingStaysInItsRegion : Obligations.AccessWithoutCrossingStaysInItsRegion := by
  intro r a n k hin hcross hk
  refine ⟨by omega, ?_⟩
  by_contra hout
  have hcrosses : crossing a n = true := (crossing_iff a n).mpr ⟨Config.hi r + 1, hi_succ_mem_edges r, by omega, by omega⟩
  rw [hcross] at hcrosses
  cases hcrosses

/-- Every byte of an access that starts in writable user memory and crosses no edge is writable user memory (R64, R65). -/
theorem UserWritable.add {a n k : Nat} (h : UserWritable a) (hcross : crossing a n = false) (hk : k < n) :
    UserWritable (a + k) := by
  have hstay : ∀ r, InRegion r a → InRegion r (a + k) :=
    fun r hin => accessWithoutCrossingStaysInItsRegion r a n k hin hcross hk
  exact h.imp (hstay _) (.imp (hstay _) (.imp (hstay _) (hstay _)))

/-- User-readable memory by regions (R62): the five regions from UBSS to UHEAP follow each other. -/
theorem userReadable_iff (a : Nat) :
    UserReadable a ↔ ∃ r ∈ [Region.syslib, .ubss, .uconst, .udata, .utext, .uheap, .ustack], InRegion r a := by
  simp only [UserReadable, InRegion, List.mem_cons, List.not_mem_nil, exists_eq_or_imp, or_false,
    exists_eq_left, region_bounds]
  omega

/-- Every byte of an access that starts in readable user memory and crosses no edge is readable user memory (R62, R65). -/
theorem UserReadable.add {a n k : Nat} (h : UserReadable a) (hcross : crossing a n = false) (hk : k < n) :
    UserReadable (a + k) := by
  obtain ⟨r, hr, hin⟩ := (userReadable_iff a).mp h
  exact (userReadable_iff (a + k)).mpr ⟨r, hr, accessWithoutCrossingStaysInItsRegion r a n k hin hcross hk⟩

/-- A single byte crosses no edge (R65). -/
theorem crossing_one (a : Nat) : crossing a 1 = false := by
  rw [Bool.eq_false_iff, ne_eq, crossing_iff]
  rintro ⟨e, _, hlt, hle⟩
  omega

/-! ### The checked accesses (R66, R67) -/

theorem checkedRead_of_admitted {k : ReadKind} {a : Word} {w : Width} {p : Priv} (hstart : startError k a.toNat p = none)
    (hcross : crossing a.toNat w.bytes = false) (m : Memory) :
    checkedRead k a w p m = .ok (BitVec.ofNat 32 (Memory.readLE m a.toNat w.bytes)) := by
  rw [checkedRead, hstart, hcross]
  rfl

theorem checkedWrite_of_admitted {a : Word} {w : Width} {p : Priv} (hstart : writeStart a.toNat p = none)
    (hcross : crossing a.toNat w.bytes = false) (v : Word) (m : Memory) :
    checkedWrite a w v p m = .ok (Memory.writeLE m a.toNat w.bytes v.toNat) := by
  rw [checkedWrite, hstart, hcross]
  rfl

theorem checkedWrite_of_crossing {a : Word} {w : Width} {p : Priv} (hstart : writeStart a.toNat p = none)
    (hcross : crossing a.toNat w.bytes = true) (v : Word) (m : Memory) :
    checkedWrite a w v p m = .error (overflowError a.toNat p) := by
  rw [checkedWrite, hstart, hcross]
  rfl

/-- A byte of memory after a checked write (R67): the value's byte inside the access, the old byte outside. -/
theorem get_of_checkedWrite {a : Word} {w : Width} {v : Word} {p : Priv} {m m' : Memory} (hm : Memory.wf m = true)
    (h : checkedWrite a w v p m = .ok m') (b : Nat) :
    Memory.get m' b =
      if a.toNat ≤ b ∧ b < a.toNat + w.bytes then BitVec.ofNat 8 (v.toNat / 256 ^ (b - a.toNat)) else Memory.get m b := by
  obtain ⟨_, _, rfl⟩ := checkedWrite_ok h
  exact Memory.get_writeLE hm ..

/-- Settles O22: the first clause by reading back what was written, the others at the first byte of each region. -/
theorem writeThenReadReturnsTheValue : Obligations.WriteThenReadReturnsTheValue := by
  refine ⟨fun a w v x p m m' hm hwrite hread => ?_, fun r hr => ⟨Config.lo r, ?_⟩, fun r hr => ⟨Config.lo r, ?_⟩⟩
  · obtain ⟨_, _, rfl⟩ := checkedWrite_ok hwrite
    obtain ⟨_, _, rfl⟩ := checkedRead_ok hread
    have hpow : 256 ^ w.bytes = 2 ^ (8 * w.bytes) := by rw [Nat.pow_mul]
    have hlt : v.toNat % 2 ^ (8 * w.bytes) < 2 ^ 32 := lt_of_le_of_lt (Nat.mod_le ..) v.isLt
    rw [Memory.readLE_writeLE_same hm, BitVec.toNat_ofNat, hpow, Nat.mod_eq_of_lt hlt]
  · revert r
    decide
  · revert r
    decide

/-- Settles O23: the error of a write that crosses, region by region. -/
theorem crossingWriteFailsByItsRegion : Obligations.CrossingWriteFailsByItsRegion := by
  intro a w v p m hstart hcross
  rw [checkedWrite_of_crossing hstart hcross]
  have hkernel : InRegion .kstack a.toNat → ¬InRegion .kheap a.toNat := by
    simp only [InRegion, region_bounds]
    omega
  have huser : InRegion .ustack a.toNat → ¬InRegion .uheap a.toNat := by
    simp only [InRegion, region_bounds]
    omega
  refine ⟨?_, ?_, ?_, ?_, ?_, ?_⟩
  · rintro h rfl
    exact congrArg Except.error (if_pos h)
  · rintro h rfl
    exact congrArg Except.error ((if_neg (hkernel h)).trans (if_pos h))
  · rintro h h' rfl
    exact congrArg Except.error ((if_neg h).trans (if_neg h'))
  · rintro h rfl
    exact congrArg Except.error (if_pos h)
  · rintro h rfl
    exact congrArg Except.error ((if_neg (huser h)).trans (if_pos h))
  · rintro h h' rfl
    exact congrArg Except.error ((if_neg h).trans (if_neg h'))

/-! ### The effective address (R202) -/

/-- Settles O24: the sign-extended offset is its signed value modulo 2^32. -/
theorem effectiveAddressIsTheWrappedSum : Obligations.EffectiveAddressIsTheWrappedSum := by
  intro rb ri simm9 s
  refine ⟨?_, BitVec.toNat_add ..⟩
  have hext : (simm9.signExtend 32).toInt = simm9.toInt := BitVec.toInt_signExtend_of_le (by decide)
  rw [BitVec.toInt_eq_toNat_cond (simm9.signExtend 32)] at hext
  simp only [effAddr, alu, memOperand, BitVec.toNat_add]
  omega

end Sys2Proof.Machine
end

section
/-! PROOFS. What an instruction can do, said once (R120), and what every step keeps: a next state, the invariant, the privilege
but for R299's ways, and all memory that is not the user's. -/

namespace Sys2Proof.Machine

/-! ### What an instruction can do (R120, R127) -/

/-- Everything an instruction can do to a state: the commit of the operand read and, on the committed state, at most a
register, the flags, `pc`, a checked write, a fault or an exception. Only the privilege violation comes before the commit
(R125), and what needs the kernel says so. -/
inductive InstrEffect (i : Instr) (s : State) : State → Prop where
  | commits : InstrEffect i s (regFileAccess s)
  | writesReg (rd : RegIdx) (v : Word) : InstrEffect i s (writeReg rd v (regFileAccess s))
  | writesFlags (f : Flags) : InstrEffect i s (writeFlags f (regFileAccess s))
  | writesFlagsAndReg (f : Flags) (rd : RegIdx) (v : Word) :
      InstrEffect i s (writeReg rd v (writeFlags f (regFileAccess s)))
  | jumps (target : Word) : InstrEffect i s { regFileAccess s with pc := target }
  | links (target : Word) (rd : RegIdx) (v : Word) :
      InstrEffect i s (writeReg rd v { regFileAccess s with pc := target })
  | stores {a : Word} {w : Width} {v : Word} {m : Memory} (hwrite : checkedWrite a w v (committedPriv s) s.mem = .ok m) :
      InstrEffect i s { regFileAccess s with mem := m }
  | faults (r : FatalReason) : InstrEffect i s (fatal r (regFileAccess s))
  | takes (e : GuestException) : InstrEffect i s (deliver e (regFileAccess s))
  | violates (hpriv : s.priv = .user) : InstrEffect i s (deliver .privViolation s)
  | halts (hpriv : s.priv = .kernel) : InstrEffect i s (haltEffect (regFileAccess s))
  | setsIe (v : Bool) (hpriv : s.priv = .kernel) : InstrEffect i s (setIe v (regFileAccess s))
  | returns (heret : i = .eret) (hpriv : s.priv = .kernel) : InstrEffect i s (returnFromException (regFileAccess s))
  | latches (v : Word) (hpriv : s.priv = .kernel) : InstrEffect i s (latchCstr v (regFileAccess s))

namespace InstrEffect

variable {i : Instr} {s : State}

theorem accessError (e : MemoryError) : InstrEffect i s (accessError e (regFileAccess s)) := by
  rcases accessError_cases e (regFileAccess s) with ⟨_, h⟩ | ⟨_, h⟩
  · rw [h]
    exact .takes _
  · rw [h]
    exact .faults _

theorem load (w : Width) (rd rb : RegIdx) (off : MemOffset) : InstrEffect i s (load w rd rb off s) := by
  rcases load_cases w rd rb off s with ⟨v, _, h⟩ | ⟨e, _, h⟩
  · rw [h]
    exact .writesReg rd v
  · rw [h]
    exact .accessError e

theorem store (w : Width) (rdata rb : RegIdx) (off : MemOffset) : InstrEffect i s (store w rdata rb off s) := by
  rcases store_cases w rdata rb off s with ⟨m, hwrite, h⟩ | ⟨e, _, h⟩
  · rw [h]
    exact .stores hwrite
  · rw [h]
    exact .accessError e

theorem branchCond (c : Cond) (off19 : BitVec 19) : InstrEffect i s (branchCond c off19 s) := by
  unfold Machine.branchCond
  simp only
  split
  · exact .jumps _
  · exact .commits

theorem div (rd rs1 rs2 : RegIdx) : ∃ t, execDiv rd rs1 rs2 s = .next t ∧ InstrEffect i s t := by
  unfold execDiv
  simp only
  split
  · exact ⟨_, rfl, .faults _⟩
  · exact ⟨_, rfl, .writesReg _ _⟩

/-- A privileged sub-opcode: the violation in user mode, its effect in kernel mode (R125). -/
theorem privileged {effect : State → State} (h : s.priv = .kernel → InstrEffect i s (effect (regFileAccess s))) :
    InstrEffect i s (privileged effect s) := by
  cases hp : s.priv with
  | user =>
    rw [privileged_user effect hp]
    exact .violates hp
  | kernel =>
    rw [privileged_kernel effect hp]
    exact h hp

end InstrEffect

/-- Every instruction completes in every state, with one of these effects (R120). -/
theorem exec_effect (i : Instr) (s : State) : ∃ t, exec i s = .next t ∧ InstrEffect i s t := by
  cases i with
  | nop => exact ⟨_, rfl, .commits⟩
  | addImm | subImm | orImm | andImm | xorImm | notImm | lslImm | lsrImm | asrImm => exact ⟨_, rfl, .writesReg _ _⟩
  | addReg | subReg | orReg | andReg | xorReg | notReg | lslReg | lsrReg | asrReg | mul =>
    exact ⟨_, rfl, .writesReg _ _⟩
  | addsImm | addsReg | subsImm | subsReg => exact ⟨_, rfl, .writesFlagsAndReg _ _ _⟩
  | cmpImm | cmpReg => exact ⟨_, rfl, .writesFlags _⟩
  | div rd rs1 rs2 => exact InstrEffect.div rd rs1 rs2
  | ld | ldh | ldb => exact ⟨_, rfl, .load ..⟩
  | str | strh | strb => exact ⟨_, rfl, .store ..⟩
  | b | br | ret => exact ⟨_, rfl, .jumps _⟩
  | call => exact ⟨_, rfl, .links _ _ _⟩
  | bEq | bNe | bOv | bNv | bMi | bPz | bCc | bCs | bGt | bGe | bLt | bLe => exact ⟨_, rfl, .branchCond _ _⟩
  | syscall => exact ⟨_, rfl, .takes _⟩
  | hlt => exact ⟨_, rfl, .privileged .halts⟩
  | si | di => exact ⟨_, rfl, .privileged (.setsIe _)⟩
  | eret => exact ⟨_, rfl, .privileged (.returns rfl)⟩
  | ldir | ldcstr | resr => exact ⟨_, rfl, .privileged fun _ => .writesReg _ _⟩
  | mvcstr => exact ⟨_, rfl, .privileged (.latches _)⟩

/-- What an instruction that has run has done (R120). -/
theorem effect_of_exec {i : Instr} {s t : State} (h : exec i s = .next t) : InstrEffect i s t := by
  obtain ⟨u, hu, heffect⟩ := exec_effect i s
  rw [h] at hu
  cases hu
  exact heffect

/-! ### Every running core steps (R120, R143) -/

/-- A cycle always ends in a next state (R120). -/
theorem exists_cycle_next (s : State) : ∃ t, cycle s = .next t := by
  unfold cycle
  simp only
  split
  next => exact ⟨_, rfl⟩
  next =>
    split
    next => exact ⟨_, rfl⟩
    next i _ =>
      obtain ⟨t, ht, _⟩ := exec_effect i (advance (beginCycle s))
      exact ⟨endOfCycle t, by rw [ht, finishCycle]⟩

theorem blocked_of_running {s : State} (hpaused : s.paused = false)
    (hstatus : s.status = .running ∨ s.status = .exception) : blocked s = none := by
  rcases hstatus with h | h <;> simp [blocked, hpaused, h]

/-- A running core's step is its cycle (R120). -/
theorem step_of_runs {s : State} (h : Runs s) : step s = cycle s := by
  obtain ⟨hfatal, hpaused, hstatus, hinputs⟩ := h
  have hblocked := blocked_of_running hpaused hstatus
  simp [step, hfatal, hinputs, coreStep, hblocked]

/-- Settles O50: no row of the dispatch and no error of the cycle is without a next state. -/
theorem runningCoreAlwaysSteps : Obligations.RunningCoreAlwaysSteps := by
  intro s h
  rw [step_of_runs h]
  exact exists_cycle_next s

/-! ### The invariant of a core inside its cycle -/

/-- The invariant inside a cycle: the counter is below the limit whatever the status, since HLT or an exception may change the
status before the cycle is counted (R139). -/
structure State.RunInv (s : State) : Prop extends State.Inv s where
  below : s.cyc < Config.safetyLimit

/-- What the invariant of a core inside its cycle looks at, field by field. -/
theorem State.RunInv.congr {s t : State} (h : s.RunInv) (hu : Untouched s t)
    (hlink : readReg 30#5 t = readReg 30#5 s) (hcstr : t.cstr.getLsbD 15 = s.cstr.getLsbD 15)
    (hlatch : t.cstrLatch = s.cstrLatch) (hmem : t.mem = s.mem) : t.RunInv where
  linkZero := by rw [hlink, h.linkZero]
  cstrTop := by rw [hcstr, h.cstrTop]
  latch := by
    rw [hlatch]
    exact h.latch
  memWf := by rw [hmem, h.memWf]
  memInBuffer := by rw [hmem, h.memInBuffer]
  counter _ := by
    rw [hu.cyc]
    exact h.below
  staged := by
    rw [hu.status, hu.fatalFlag, hu.ioRequest]
    exact h.staged
  reported := by rw [hu.fatalFlag, hu.outbox, h.reported]
  below := by
    rw [hu.cyc]
    exact h.below

namespace State.RunInv

variable {s : State}

theorem regFileAccess (h : s.RunInv) : (regFileAccess s).RunInv where
  linkZero := by rw [readReg_regFileAccess, h.linkZero]
  cstrTop := by
    rw [regFileAccess_cstr, committedCstr]
    split
    · simp
    · exact h.cstrTop
  latch := by
    rw [regFileAccess_cstrLatch, committedLatch]
    split
    · exact .inr rfl
    · exact h.latch
  memWf := by rw [regFileAccess_mem, h.memWf]
  memInBuffer := by rw [regFileAccess_mem, h.memInBuffer]
  counter _ := by
    rw [regFileAccess_cyc]
    exact h.below
  staged := by simpa using h.staged
  reported := by simpa using h.reported
  below := by
    rw [regFileAccess_cyc]
    exact h.below

/-- A register write keeps index 30 at 0 (R22, R23). -/
theorem putReg (h : s.RunInv) (i : RegIdx) (v : Word) : (putReg i v s).RunInv := by
  have hlink : readReg 30#5 (Machine.putReg i v s) = readReg 30#5 s := by
    rw [readReg_putReg, if_neg]
    rintro ⟨rfl, hne⟩
    exact hne rfl
  exact h.congr (by constructor <;> simp) hlink (by simp) (by simp) (by simp)

theorem writeReg (h : s.RunInv) (i : RegIdx) (v : Word) : (writeReg i v s).RunInv := h.regFileAccess.putReg i v

/-- The flag write keeps bit 15 of CSTR (R30, R160). -/
theorem writeFlags (h : s.RunInv) (f : Flags) : (writeFlags f s).RunInv := by
  obtain ⟨_, _, _, _, hother⟩ := putFlags_replaced s.cstr f
  exact h.congr (by constructor <;> rfl) (by simp) (hother 15 (by decide)) rfl rfl

theorem setPc (h : s.RunInv) (target : Word) : State.RunInv { s with pc := target } :=
  h.congr (by constructor <;> rfl) rfl rfl rfl rfl

theorem setIe (h : s.RunInv) (v : Bool) : (setIe v s).RunInv :=
  h.congr (by constructor <;> rfl) (by simp) (getLsbD_cstrSet ..) rfl rfl

theorem latchCstr (h : s.RunInv) (v : Word) : (latchCstr v s).RunInv where
  __ := h.regFileAccess.congr (t := { Machine.latchCstr v s with cstrLatch := (Machine.regFileAccess s).cstrLatch })
    (by constructor <;> rfl) rfl rfl rfl rfl
  latch := .inl ((getLsbD_setBit _ _ _ _ (by decide)).trans (if_pos rfl))

/-- An admitted write keeps memory canonical and in the buffer (R50, R67). -/
theorem checkedWrite (h : s.RunInv) {a : Word} {w : Width} {v : Word} {p : Priv} {m : Memory}
    (hwrite : checkedWrite a w v p s.mem = .ok m) : State.RunInv { s with mem := m } where
  __ := h
  memWf := checkedWrite_wf hwrite h.memWf
  memInBuffer := checkedWrite_inBuffer hwrite h.memInBuffer

/-- A fatal fault is reported, and nothing is then asked of a wait for IO (R290). -/
theorem fatal (h : s.RunInv) (r : FatalReason) : (fatal r s).RunInv where
  __ := h
  staged _ hsafe := by simp at hsafe
  reported := by simp [CoreCall.isFatal]

theorem enterHandler (h : s.RunInv) (e : GuestException) : (enterHandler e s).RunInv where
  __ := h
  cstrTop := (getLsbD_cstrSet ..).trans h.cstrTop
  counter _ := h.below
  staged hwait := by cases hwait

theorem deliver (h : s.RunInv) (e : GuestException) : (deliver e s).RunInv := by
  rcases deliver_cases e s with ⟨_, hd⟩ | ⟨m1, m2, _, hip, htag, hd⟩ | ⟨_, _, _, hd⟩ | ⟨m1, _, _, hip, _, hd⟩
  · rw [hd]
    exact h.enterHandler e
  · rw [hd]
    exact ((h.checkedWrite hip).checkedWrite htag).enterHandler e
  · rw [hd]
    exact h.fatal _
  · rw [hd]
    exact (h.checkedWrite hip).fatal _

theorem returnFromException (h : s.RunInv) : (returnFromException s).RunInv := by
  rcases returnFromException_cases s with ⟨_, hr⟩ | ⟨_, _, _, hr⟩ | ⟨ip, _, _, hr⟩
  · rw [hr]
    exact h.fatal _
  · rw [hr]
    exact h.fatal _
  · rw [hr]
    exact h.congr (by constructor <;> rfl) rfl (getLsbD_cstrSet ..) rfl rfl

/-- A plain halt reports what the halt check says, fatal or not (R243, R294). -/
theorem plainHalt (h : s.RunInv) : (plainHalt s).RunInv where
  __ := h
  counter _ := h.below
  staged hwait := by cases hwait
  reported := by simp [Machine.plainHalt, h.reported, Bool.or_comm]

/-- An IO halt stages a request, or its fatal fault is reported (R244, R291). -/
theorem stageIo (h : s.RunInv) : (stageIo s).RunInv := by
  unfold Machine.stageIo
  simp only
  split
  · exact { h with
      counter := fun _ => h.below
      staged := fun _ _ => rfl
      reported := by simp [CoreCall.isFatal, h.reported] }
  · exact { h with
      counter := fun _ => h.below
      staged := fun _ hsafe => by simp at hsafe
      reported := by simp [CoreCall.isFatal] }

theorem haltEffect (h : s.RunInv) : (haltEffect s).RunInv := by
  unfold Machine.haltEffect
  split
  · exact h.stageIo
  · exact h.plainHalt

/-- No instruction breaks the invariant. -/
theorem effect (h : s.RunInv) {i : Instr} {t : State} (heffect : InstrEffect i s t) : t.RunInv := by
  have hc := h.regFileAccess
  cases heffect with
  | commits => exact hc
  | writesReg rd v => exact hc.writeReg rd v
  | writesFlags f => exact hc.writeFlags f
  | writesFlagsAndReg f rd v => exact (hc.writeFlags f).writeReg rd v
  | jumps target => exact hc.setPc target
  | links target rd v => exact (hc.setPc target).writeReg rd v
  | stores hwrite => exact hc.checkedWrite (by rw [regFileAccess_mem, hwrite])
  | faults r => exact hc.fatal r
  | takes e => exact hc.deliver e
  | violates => exact h.deliver _
  | halts => exact hc.haltEffect
  | setsIe v => exact hc.setIe v
  | returns => exact hc.returnFromException
  | latches v => exact hc.latchCstr v

theorem fetchError (h : s.RunInv) (e : MemoryError) : (fetchError e s).RunInv := by
  unfold Machine.fetchError
  split
  · exact h.deliver _
  · exact h.fatal _

theorem invalidOpcode (h : s.RunInv) : (invalidOpcode s).RunInv := by
  unfold Machine.invalidOpcode
  split
  · exact h.deliver _
  · exact h.fatal _

/-- The end of a cycle: the counter advances below the limit, or the core halts with its report (R139). -/
theorem endOfCycle (h : s.RunInv) : (endOfCycle s).Inv := by
  unfold Machine.endOfCycle
  split
  · exact h.toInv
  next hflag =>
    have hflag : s.fatalFlag = false := Bool.eq_false_of_not_eq_true hflag
    have hquiet : s.outbox.any CoreCall.isFatal = false := by rw [← h.reported, hflag]
    cases hexp : safetyExpired s with
    | true =>
      exact { h with
        counter := fun hactive => by cases hactive
        staged := fun hwait => by cases hwait
        reported := by simp [hquiet] }
    | false =>
      exact { h with
        counter := fun hactive => by
          have hactive : s.status.active = true := hactive
          simpa [safetyExpired, hactive] using hexp
        staged := fun hwait _ => h.staged hwait hflag
        reported := by simp [hquiet] }

end State.RunInv

/-! ### Every step keeps the invariant -/

/-- A core that is not blocked is in a status in which cycles run (R120). -/
theorem active_of_not_blocked {s : State} (h : blocked s = none) : s.status.active = true := by
  unfold blocked at h
  split at h
  · cases h
  · cases hs : s.status with
    | running | exception => rfl
    | halted | ioWait => simp [hs] at h

/-- A core that starts a cycle meets the invariant of a core inside its cycle (R121, R139). -/
theorem State.Inv.beginCycle {s : State} (h : s.Inv) (hblocked : blocked s = none) : (beginCycle s).RunInv := by
  have hrun : s.RunInv := { h with below := h.counter (active_of_not_blocked hblocked) }
  unfold Machine.beginCycle
  split
  · exact { hrun with
      counter := fun _ => hrun.below
      staged := fun hwait => by cases hwait }
  · exact hrun

theorem cycle_keeps_inv {s t : State} (h : s.Inv) (hblocked : blocked s = none) (hcycle : cycle s = .next t) : t.Inv := by
  have hfetched : (advance (beginCycle s)).RunInv := (h.beginCycle hblocked).setPc _
  rcases cycle_cases hcycle with ⟨e, _, rfl⟩ | ⟨_, _, _, _, rfl⟩ | ⟨_, i, u, _, _, hexec, rfl⟩
  · exact (hfetched.fetchError e).endOfCycle
  · exact hfetched.invalidOpcode.endOfCycle
  · exact (hfetched.effect (effect_of_exec hexec)).endOfCycle

/-- The schedule is no part of the invariant. -/
theorem State.Inv.setHostInputs {s : State} (h : s.Inv) (inputs : List HostInput) :
    State.Inv { s with hostInputs := inputs } where
  __ := h

/-- A byte the host may write lies in the buffer (R297). -/
theorem lt_memSize_of_hostMayWrite {addr : Word} {s : State} (h : hostMayWrite addr s = true) :
    addr.toNat < Config.memSize := by
  rw [hostMayWrite, Bool.and_eq_true, decide_eq_true_eq] at h
  exact h.1

/-- A core that the host sets running starts counting at 0, below the limit (R34, R296). -/
theorem State.Inv.restart {s : State} (h : s.Inv) (entry : Word) :
    State.Inv { s with pc := entry, status := .running, cyc := 0 } where
  __ := h
  counter _ := Nat.succ_pos _
  staged hwait := by cases hwait

theorem hostAct_keeps_inv {a : HostInput} {s t : State} (h : s.Inv) (hact : hostAct a s = .next t) : t.Inv := by
  cases a with
  | run =>
    cases hact
    exact h
  | pause | unpause =>
    cases hact
    exact { h with }
  | resume entry =>
    cases hact
    unfold hostResume
    split
    · exact h.restart entry
    · exact h.restart entry
    · exact h
    · exact h
  | acknowledge kind =>
    cases hact
    unfold hostAcknowledge
    split
    · exact h.restart s.pc
    · exact h
    · exact h
    · exact h
  | write addr value =>
    unfold hostAct at hact
    simp only at hact
    split at hact
    next hmay =>
      cases hact
      exact { h with
        memWf := Memory.wf_set _ _ h.memWf
        memInBuffer := Memory.inBuffer_set _ h.memInBuffer (lt_memSize_of_hostMayWrite hmay) }
    next => cases hact

/-- Settles O56: a step is an action of the host or a cycle, and each keeps the invariant. -/
theorem stepKeepsTheInvariant : Obligations.StepKeepsTheInvariant := by
  intro s t h hstep
  obtain ⟨_, ⟨a, rest, _, _, hact⟩ | ⟨_, hblocked, hcycle⟩⟩ := step_cases hstep
  · exact hostAct_keeps_inv (h.setHostInputs rest) hact
  · exact cycle_keeps_inv (h.setHostInputs s.hostInputs.tail) hblocked hcycle

/-- Settles O55. -/
theorem resetSatisfiesTheInvariant : Obligations.ResetSatisfiesTheInvariant where
  linkZero := by decide
  cstrTop := by decide
  latch := .inr rfl
  memWf := rfl
  memInBuffer := rfl
  counter hactive := by cases hactive
  staged hwait := by cases hwait
  reported := rfl

end Sys2Proof.Machine
end

section
/-! PROOFS. What protects the kernel: how privilege changes (R299), which bytes a user step writes (R64, R298), and what a user
step can learn of memory (R60, R62). -/

namespace Sys2Proof.Machine

/-! ### How privilege changes (R298, R299) -/

/-- The privilege is the one of `s`, or `t` stands at the exception vector in kernel mode. -/
def KeepsPrivOrEnters (s t : State) : Prop :=
  t.priv = s.priv ∨ (t.priv = .kernel ∧ t.pc = Config.excVector ∧ t.status = .exception)

theorem priv_eq_of_cstr_eq {s t : State} (h : t.cstr = s.cstr) : t.priv = s.priv := by
  rw [State.priv, State.priv, h]

theorem enterHandler_enters (e : GuestException) (s : State) : KeepsPrivOrEnters s (enterHandler e s) :=
  .inr ⟨by simp [State.priv], rfl, rfl⟩

/-- Delivery raises privilege at the exception vector only; where it is fatal, privilege stays (R280, R290). -/
theorem deliver_keepsPrivOrEnters (e : GuestException) (s : State) : KeepsPrivOrEnters s (deliver e s) := by
  rcases deliver_cases e s with ⟨_, h⟩ | ⟨_, _, _, _, _, h⟩ | ⟨_, _, _, h⟩ | ⟨_, _, _, _, _, h⟩ <;> rw [h]
  · exact enterHandler_enters e s
  · exact enterHandler_enters e _
  · exact .inl rfl
  · exact .inl rfl

theorem fetchError_keepsPrivOrEnters (e : MemoryError) (s : State) : KeepsPrivOrEnters s (fetchError e s) := by
  unfold fetchError
  split
  · exact deliver_keepsPrivOrEnters _ s
  · exact .inl rfl

theorem invalidOpcode_keepsPrivOrEnters (s : State) : KeepsPrivOrEnters s (invalidOpcode s) := by
  unfold invalidOpcode
  split
  · exact deliver_keepsPrivOrEnters _ s
  · exact .inl rfl

theorem committedCstr_of_not_pending {s : State} (h : s.cstrLatch.getLsbD 15 = false) : committedCstr s = s.cstr := by
  rw [← regFileAccess_cstr, regFileAccess_of_not_pending h]

theorem committedPriv_of_not_pending {s : State} (h : s.cstrLatch.getLsbD 15 = false) : committedPriv s = s.priv := by
  rw [← regFileAccess_priv, regFileAccess_of_not_pending h]

/-- With nothing pending, an instruction other than ERET changes privilege by an exception only (R299). -/
theorem InstrEffect.keepsPrivOrEnters {i : Instr} {s t : State} (hlatch : s.cstrLatch.getLsbD 15 = false)
    (h : InstrEffect i s t) : KeepsPrivOrEnters s t ∨ (i = .eret ∧ s.priv = .kernel) := by
  have hc : regFileAccess s = s := regFileAccess_of_not_pending hlatch
  cases h with
  | takes e =>
    rw [hc]
    exact .inl (deliver_keepsPrivOrEnters e s)
  | violates => exact .inl (deliver_keepsPrivOrEnters _ s)
  | returns heret hpriv => exact .inr ⟨heret, hpriv⟩
  | commits | jumps | stores | faults | halts =>
    rw [hc]
    exact .inl (.inl (priv_eq_of_cstr_eq (by simp)))
  | writesReg | latches =>
    rw [hc]
    exact .inl (.inl (priv_eq_of_cstr_eq (by simp [committedCstr_of_not_pending hlatch])))
  | links target rd v =>
    rw [hc]
    exact .inl (.inl (priv_eq_of_cstr_eq (writeReg_cstr_of_not_pending (s := { s with pc := target }) hlatch rd v)))
  | writesFlags =>
    rw [hc]
    exact .inl (.inl (privOf_putFlags ..))
  | writesFlagsAndReg f rd v =>
    rw [hc]
    have hflags : (writeFlags f s).priv = s.priv := privOf_putFlags ..
    exact .inl (.inl ((priv_eq_of_cstr_eq (writeReg_cstr_of_not_pending (s := writeFlags f s) hlatch rd v)).trans hflags))
  | setsIe =>
    rw [hc]
    exact .inl (.inl (privOf_cstrSet_ie ..))

/-- With nothing pending, a cycle changes privilege by an exception or an ERET only (R299). The end of the cycle may halt a
core that stands at the exception vector (R139). -/
theorem cycle_priv {s t : State} (hlatch : s.cstrLatch.getLsbD 15 = false) (h : cycle s = .next t) :
    t.priv = s.priv ∨
    (t.priv = .kernel ∧ t.pc = Config.excVector ∧ (t.status = .exception ∨ t.status = .halted)) ∨
    (s.priv = .kernel ∧ ∃ w, fetchWord s = .ok w ∧ decodeWord w = .ok .eret) := by
  have hstart : (advance (beginCycle s)).priv = s.priv := priv_eq_of_cstr_eq (by simp)
  have hend : ∀ u, KeepsPrivOrEnters (advance (beginCycle s)) u → (endOfCycle u).priv = s.priv ∨
      ((endOfCycle u).priv = .kernel ∧ (endOfCycle u).pc = Config.excVector ∧
        ((endOfCycle u).status = .exception ∨ (endOfCycle u).status = .halted)) := by
    rintro u (hkept | ⟨hkernel, hpc, hstatus⟩)
    · exact .inl ((priv_eq_of_cstr_eq (endOfCycle_cstr u)).trans (hkept.trans hstart))
    · refine .inr ⟨(priv_eq_of_cstr_eq (endOfCycle_cstr u)).trans hkernel, by rw [endOfCycle_pc, hpc], ?_⟩
      rw [endOfCycle_status, hstatus]
      split
      · exact .inr rfl
      · exact .inl rfl
  rcases cycle_cases h with ⟨e, _, rfl⟩ | ⟨_, _, _, _, rfl⟩ | ⟨w, i, u, hfetch, hdecode, hexec, rfl⟩
  · exact (hend _ (fetchError_keepsPrivOrEnters e _)).imp_right .inl
  · exact (hend _ (invalidOpcode_keepsPrivOrEnters _)).imp_right .inl
  · have hpending : (advance (beginCycle s)).cstrLatch.getLsbD 15 = false := by simpa using hlatch
    rcases (effect_of_exec hexec).keepsPrivOrEnters hpending with hkept | ⟨rfl, hkernel⟩
    · exact (hend _ hkept).imp_right .inl
    · exact .inr (.inr ⟨hstart ▸ hkernel, w, fetchWord_beginCycle s ▸ hfetch, hdecode⟩)

/-- With nothing pending, a step changes privilege by an exception or an ERET only: the host never does (R299). -/
theorem step_priv {s t : State} (hlatch : s.cstrLatch.getLsbD 15 = false) (h : step s = .next t) :
    t.priv = s.priv ∨
    (t.priv = .kernel ∧ t.pc = Config.excVector ∧ (t.status = .exception ∨ t.status = .halted)) ∨
    (s.priv = .kernel ∧ ∃ w, fetchWord s = .ok w ∧ decodeWord w = .ok .eret) := by
  obtain ⟨_, ⟨a, rest, _, _, hact⟩ | ⟨_, _, hcycle⟩⟩ := step_cases h
  · exact .inl (priv_eq_of_cstr_eq (s := s) (hostAct_cstr (s := { s with hostInputs := rest }) hact))
  · exact cycle_priv (s := { s with hostInputs := s.hostInputs.tail }) hlatch hcycle

/-- Settles O57, by the ways in which a step changes privilege. -/
theorem privilegeChangesOnlyByDeliveryEretOrCommit : Obligations.PrivilegeChangesOnlyByDeliveryEretOrCommit := by
  intro s t hlatch hstep
  rcases step_priv hlatch hstep with hkept | ⟨hkernel, hvector⟩ | ⟨hkernel, heret⟩
  · exact ⟨fun hu hk => by simp [hkept, hu] at hk, fun hk hu => by simp [hkept, hk] at hu⟩
  · exact ⟨fun _ _ => hvector, fun _ hu => by simp [hkernel] at hu⟩
  · exact ⟨fun hu _ => by simp [hkernel] at hu, fun _ _ => heret⟩

/-! ### Which bytes a user step writes (R64, R280, R298) -/

/-- Every byte outside user-writable memory and the slots of the active record reads as before. -/
def KeepsKernelBytes (s t : State) : Prop :=
  ∀ a : Nat, ¬UserWritable a → ¬InPsSlots s a → Memory.get t.mem a = Memory.get s.mem a

theorem KeepsKernelBytes.of_mem_eq {s t : State} (h : t.mem = s.mem) : KeepsKernelBytes s t := by
  intro a _ _
  rw [h]

/-- The bytes a delivery saves to are the slots of the active record (R37, R280). -/
theorem not_saved_of_not_inPsSlots {s : State} {a : Nat} (h : ¬InPsSlots s a) (hp : psPointer s ≠ 0#32) :
    ¬((psPointer s + Config.psSavedIp).toNat ≤ a ∧ a < (psPointer s + Config.psSavedIp).toNat + Width.word.bytes) ∧
    ¬((psPointer s + Config.psTag).toNat ≤ a ∧ a < (psPointer s + Config.psTag).toNat + Width.byte.bytes) := by
  constructor
  · exact fun hip => h ⟨hp, .inl hip⟩
  · exact fun ⟨hlo, hhi⟩ => h ⟨hp, .inr (Nat.le_antisymm (Nat.le_of_lt_succ hhi) hlo)⟩

/-- Delivery writes no byte outside the slots of the active record, not even where it is fatal (R280, R290). -/
theorem get_deliver_of_not_inPsSlots {s : State} (hwf : Memory.wf s.mem = true) (e : GuestException) {a : Nat}
    (ha : ¬InPsSlots s a) : Memory.get (deliver e s).mem a = Memory.get s.mem a := by
  rcases deliver_cases e s with ⟨_, h⟩ | ⟨m1, m2, hp, hip, htag, h⟩ | ⟨_, _, _, h⟩ | ⟨m1, _, hp, hip, _, h⟩
  · rw [h, enterHandler_mem]
  · obtain ⟨hnoip, hnotag⟩ := not_saved_of_not_inPsSlots ha hp
    rw [h, enterHandler_mem, get_of_checkedWrite (checkedWrite_wf hip hwf) htag, if_neg hnotag,
      get_of_checkedWrite hwf hip, if_neg hnoip]
  · rw [h, fatal_mem]
  · obtain ⟨hnoip, _⟩ := not_saved_of_not_inPsSlots ha hp
    rw [h, fatal_mem, get_of_checkedWrite hwf hip, if_neg hnoip]

theorem deliver_keepsKernelBytes {s : State} (hwf : Memory.wf s.mem = true) (e : GuestException) :
    KeepsKernelBytes s (deliver e s) :=
  fun _ _ ha => get_deliver_of_not_inPsSlots hwf e ha

/-- A write admitted for the user stays in user-writable memory (R64, R65). -/
theorem get_of_user_checkedWrite {a : Word} {w : Width} {v : Word} {m m' : Memory} (hwf : Memory.wf m = true)
    (h : checkedWrite a w v .user m = .ok m') {b : Nat} (hb : ¬UserWritable b) : Memory.get m' b = Memory.get m b := by
  obtain ⟨hstart, hcross, _⟩ := checkedWrite_ok h
  rw [get_of_checkedWrite hwf h, if_neg]
  rintro ⟨hlo, hhi⟩
  obtain ⟨k, rfl⟩ := Nat.exists_eq_add_of_le hlo
  exact hb (UserWritable.add ((writeStart_user_eq_none _).mp hstart) hcross (by omega))

/-- With nothing pending, no instruction of the user writes kernel memory but by an exception (R298). -/
theorem InstrEffect.keepsKernelBytes {i : Instr} {s t : State} (hwf : Memory.wf s.mem = true) (huser : s.priv = .user)
    (hlatch : s.cstrLatch.getLsbD 15 = false) (h : InstrEffect i s t) : KeepsKernelBytes s t := by
  cases h with
  | takes e =>
    rw [regFileAccess_of_not_pending hlatch]
    exact deliver_keepsKernelBytes hwf e
  | violates => exact deliver_keepsKernelBytes hwf _
  | stores hwrite =>
    rw [committedPriv_of_not_pending hlatch, huser] at hwrite
    exact fun a ha _ => get_of_user_checkedWrite hwf hwrite ha
  | commits | writesReg | writesFlags | writesFlagsAndReg | jumps | links | faults => exact .of_mem_eq (by simp)
  | halts hkernel | setsIe _ hkernel | returns _ hkernel | latches _ hkernel =>
    rw [huser] at hkernel
    cases hkernel

/-- The fetch's error and OP_ERROR write memory by delivery only (R122, R124). -/
theorem fetchError_keepsKernelBytes {s : State} (hwf : Memory.wf s.mem = true) (e : MemoryError) :
    KeepsKernelBytes s (fetchError e s) := by
  unfold fetchError
  split
  · exact deliver_keepsKernelBytes hwf _
  · exact .of_mem_eq (fatal_mem ..)

theorem invalidOpcode_keepsKernelBytes {s : State} (hwf : Memory.wf s.mem = true) : KeepsKernelBytes s (invalidOpcode s) := by
  unfold invalidOpcode
  split
  · exact deliver_keepsKernelBytes hwf _
  · exact .of_mem_eq (fatal_mem ..)

/-- A step with nothing scheduled by the host is the core's cycle (R143). -/
theorem cycle_of_step {s t : State} (hinputs : s.hostInputs = []) (h : step s = .next t) : cycle s = .next t := by
  unfold step at h
  split at h
  · cases h
  · rw [hinputs] at h
    obtain ⟨_, hcycle⟩ := coreStep_next h
    exact hcycle

/-- The slots of the active record are read off memory alone. -/
theorem KeepsKernelBytes.congr_left {s f t : State} (hmem : f.mem = s.mem) (h : KeepsKernelBytes f t) :
    KeepsKernelBytes s t := by
  have hptr : psPointer f = psPointer s := by rw [psPointer, psPointer, hmem]
  intro a ha hslots
  rw [h a ha (by rwa [InPsSlots, hptr]), hmem]

/-- Settles O58: the cycle's start and end leave memory alone, and what stands between writes user memory or the slots. -/
theorem userStepsChangeOnlyUserMemory : Obligations.UserStepsChangeOnlyUserMemory := by
  intro s t hwf huser hlatch hinputs hstep
  have hmem : (advance (beginCycle s)).mem = s.mem := by simp
  have hwf' : Memory.wf (advance (beginCycle s)).mem = true := by rw [hmem, hwf]
  have hfetched : ∀ u, KeepsKernelBytes (advance (beginCycle s)) u → KeepsKernelBytes s (endOfCycle u) := by
    intro u hu a ha hslots
    rw [endOfCycle_mem]
    exact KeepsKernelBytes.congr_left hmem hu a ha hslots
  rcases cycle_cases (cycle_of_step hinputs hstep) with ⟨e, _, rfl⟩ | ⟨_, _, _, _, rfl⟩ | ⟨_, i, u, _, _, hexec, rfl⟩
  · exact hfetched _ (fetchError_keepsKernelBytes hwf' e)
  · exact hfetched _ (invalidOpcode_keepsKernelBytes hwf')
  · refine hfetched u ((effect_of_exec hexec).keepsKernelBytes hwf' ?_ (by simpa using hlatch))
    rw [priv_eq_of_cstr_eq (by simp : (advance (beginCycle s)).cstr = s.cstr), huser]

end Sys2Proof.Machine
end

section
/-! PROOFS. Arithmetic, logic and shifts (R150 to R180) and the transfers of control (R220 to R229): results, flags and frames. -/

namespace Sys2Proof.Machine

/-! ### The commit and the fatal fault, in the words claims use -/

/-- The operand read's commit is what `committedState` says without the operation (R40). -/
theorem regFileAccess_eq_committedState (s : State) : regFileAccess s = committedState s := regFileAccess_effect s

/-- `fatal` is what `fatalState` says without the operation (R290). -/
theorem fatal_eq_fatalState (r : FatalReason) (s : State) : fatal r s = fatalState r s := by
  simp [fatal, callHost, fatalState, CoreCall.isFatal]

/-- Settles O6: NOP is the commit alone. -/
theorem nopOnlyCommits : Obligations.NopOnlyCommits := by
  intro s
  rw [exec, execNop, regFileAccess_effect, committedCstr, committedLatch]
  cases s.cstrLatch.getLsbD 15 <;> rfl

/-! ### The plain results (R162 to R177) -/

/-- Settles O7: ADD and SUB have the plain ALU shape. -/
theorem addAndSubWriteTheWrappedResult : Obligations.AddAndSubWriteTheWrappedResult :=
  fun rd rs rs2 imm s =>
    ⟨⟨_, rfl, aluImm_effect .add rd rs imm s⟩, ⟨_, rfl, aluReg_effect .add rd rs rs2 s⟩,
      ⟨_, rfl, aluImm_effect .sub rd rs imm s⟩, ⟨_, rfl, aluReg_effect .sub rd rs rs2 s⟩⟩

/-- Settles O13: OR, AND and XOR have the plain ALU shape. -/
theorem logicWritesTheBitwiseResult : Obligations.LogicWritesTheBitwiseResult :=
  fun rd rs rs2 imm s =>
    ⟨⟨_, rfl, aluImm_effect .or rd rs imm s⟩, ⟨_, rfl, aluReg_effect .or rd rs rs2 s⟩,
      ⟨_, rfl, aluImm_effect .and rd rs imm s⟩, ⟨_, rfl, aluReg_effect .and rd rs rs2 s⟩,
      ⟨_, rfl, aluImm_effect .xor rd rs imm s⟩, ⟨_, rfl, aluReg_effect .xor rd rs rs2 s⟩⟩

/-- Settles O14: NOT has the plain ALU shape, and its result drops operand B. -/
theorem notComplementsThePrimarySource : Obligations.NotComplementsThePrimarySource :=
  fun rd rs rs2 imm s => ⟨⟨_, rfl, aluImm_effect .not rd rs imm s⟩, ⟨_, rfl, aluReg_effect .not rd rs rs2 s⟩⟩

/-- Five bits of operand B are its value modulo 32 (R152). -/
theorem shiftAmount_eq_mod (b : Word) : shiftAmount b = b.toNat % 32 := by
  simp [shiftAmount]

@[simp] theorem immI_toNat (imm14 : BitVec 14) : (immI imm14).toNat = imm14.toNat :=
  BitVec.toNat_setWidth_of_le (by decide)

theorem shiftAmount_immI (imm14 : BitVec 14) : shiftAmount (immI imm14) = imm14.toNat % 32 := by
  rw [shiftAmount_eq_mod, immI_toNat]

/-- Settles O15: the plain ALU shape, with the amount of R152. -/
theorem shiftsUseTheAmountModulo32 : Obligations.ShiftsUseTheAmountModulo32 := by
  intro rd rs rs2 imm s
  simp only [← shiftAmount_immI, ← shiftAmount_eq_mod]
  exact ⟨⟨_, rfl, aluImm_effect .lsl rd rs imm s⟩, ⟨_, rfl, aluReg_effect .lsl rd rs rs2 s⟩,
    ⟨_, rfl, aluImm_effect .lsr rd rs imm s⟩, ⟨_, rfl, aluReg_effect .lsr rd rs rs2 s⟩,
    ⟨_, rfl, aluImm_effect .asr rd rs imm s⟩, ⟨_, rfl, aluReg_effect .asr rd rs rs2 s⟩⟩

/-- DIV with a nonzero divisor writes the quotient (R168). -/
theorem execDiv_of_ne_zero {rs2 : RegIdx} {s : State} (h : readReg rs2 s ≠ 0#32) (rd rs1 : RegIdx) :
    execDiv rd rs1 rs2 s = .next (writeReg rd (alu .div (readReg rs1 s) (readReg rs2 s)) s) := by
  simp [execDiv, h]

/-- DIV with a zero divisor takes the fatal fault on the committed state (R153). -/
theorem execDiv_of_eq_zero {rs2 : RegIdx} {s : State} (h : readReg rs2 s = 0#32) (rd rs1 : RegIdx) :
    execDiv rd rs1 rs2 s = .next (fatal .divZero (regFileAccess s)) := by
  simp [execDiv, h]

/-- Settles O16: the product and the quotient of the words are those of their numbers. -/
theorem mulAndDivWriteTheUnsignedResult : Obligations.MulAndDivWriteTheUnsignedResult := by
  refine fun rd rs1 rs2 s => ⟨⟨_, rfl, ?_⟩, fun hne => ⟨_, execDiv_of_ne_zero hne rd rs1, ?_⟩⟩
  · rw [BitVec.ofNat_mul, BitVec.ofNat_toNat, BitVec.ofNat_toNat, BitVec.setWidth_eq, BitVec.setWidth_eq]
    exact aluReg_effect .mul rd rs1 rs2 s
  · rw [← BitVec.udiv_def]
    exact writeReg_effect ..

/-- Settles O17. -/
theorem divisionByZeroIsFatal : Obligations.DivisionByZeroIsFatal := by
  intro rd rs1 rs2 s hzero
  rw [exec, execDiv_of_eq_zero hzero, fatal_eq_fatalState, regFileAccess_eq_committedState]

/-! ### The flag-setting instructions (R160 to R166) -/

/-- The flag write on a committed state (R160): the four flags, and the rest of the commit as it was. -/
theorem writeFlags_effect (f : Flags) (s : State) :
    SameRegs s (writeFlags f (regFileAccess s)) ∧ (writeFlags f (regFileAccess s)).pc = s.pc ∧
      FlagsReplaced f.c f.o f.n f.z (committedCstr s) (writeFlags f (regFileAccess s)).cstr ∧
      (writeFlags f (regFileAccess s)).cstrLatch = committedLatch s ∧
      SameMemory s (writeFlags f (regFileAccess s)) ∧ Untouched s (writeFlags f (regFileAccess s)) := by
  refine ⟨fun i => by simp, by simp, ?_, by simp, fun a => by simp, by constructor <;> simp⟩
  rw [writeFlags_cstr, regFileAccess_cstr]
  exact putFlags_replaced _ f

/-- The flag write and the write-back, whose own commit check finds nothing pending (R163, R165, R40). -/
theorem writeReg_writeFlags_effect (rd : RegIdx) (v : Word) (f : Flags) (s : State) :
    WritesFlagsAndRegister rd v f.c f.o f.n f.z s (writeReg rd v (writeFlags f (regFileAccess s))) := by
  obtain ⟨hregs, hpc, hflags, hlatch, hmem, hrest⟩ := writeFlags_effect f s
  have hpending : (writeFlags f (regFileAccess s)).cstrLatch.getLsbD 15 = false := by
    rw [hlatch, committedLatch_not_pending]
  rw [writeReg, regFileAccess_of_not_pending hpending]
  refine ⟨⟨?_, fun i hi => ?_⟩, by simp, by simpa using hflags, by simp, fun a => by simp, by constructor <;> simp⟩
  · rw [readReg_putReg]
    by_cases h30 : rd = 30#5 <;> simp [h30]
  · rw [readReg_putReg, if_neg (fun h => hi h.1), hregs]

/-- Carry out of bit 31 (R160): the wrapped sum is below an operand where the exact sum does not fit. -/
theorem add_lt_left_iff (a b : Word) : a + b < a ↔ 2 ^ 32 ≤ a.toNat + b.toNat := by
  rw [BitVec.lt_def, BitVec.toNat_add]
  omega

/-- A difference is zero where the operands are equal (R160). -/
theorem sub_beq_zero (a b : Word) : (a - b == 0#32) = (a == b) := by
  rw [Bool.eq_iff_iff, beq_iff_eq, beq_iff_eq]
  constructor
  · intro h
    bv_omega
  · rintro rfl
    exact BitVec.sub_self a

theorem flagsAdd_eq (a b : Word) :
    flagsAdd a b (a + b) =
      ⟨decide (2 ^ 32 ≤ a.toNat + b.toNat), ovfAdd a b (a + b), (a + b).msb, a + b == 0#32⟩ := by
  simp only [flagsAdd, add_lt_left_iff]

theorem flagsSub_eq (a b : Word) :
    flagsSub a b (a - b) = ⟨decide (b.toNat ≤ a.toNat), ovfSub a b (a - b), (a - b).msb, a == b⟩ := by
  simp only [flagsSub, sub_beq_zero, BitVec.le_def]

theorem addWithFlags_eq (rd : RegIdx) (a b : Word) (s : State) :
    addWithFlags rd a b s = writeReg rd (a + b)
      (writeFlags ⟨decide (2 ^ 32 ≤ a.toNat + b.toNat), ovfAdd a b (a + b), (a + b).msb, a + b == 0#32⟩ s) := by
  rw [← flagsAdd_eq]
  rfl

theorem subWithFlags_eq (rd : RegIdx) (a b : Word) (s : State) :
    subWithFlags rd a b s = writeReg rd (a - b)
      (writeFlags ⟨decide (b.toNat ≤ a.toNat), ovfSub a b (a - b), (a - b).msb, a == b⟩ s) := by
  rw [← flagsSub_eq]
  rfl

theorem compareFlags_eq (a b : Word) (s : State) :
    compareFlags a b s =
      writeFlags ⟨decide (b.toNat ≤ a.toNat), ovfSub a b (a - b), (a - b).msb, a == b⟩ s := by
  rw [← flagsSub_eq]
  rfl

/-- Settles O8: the sum and its flags, written by ADDS with either operand B. -/
theorem addsWritesSumAndFlags : Obligations.AddsWritesSumAndFlags := by
  intro rd rs rs2 imm s
  refine ⟨⟨_, rfl, ?_⟩, ⟨_, rfl, ?_⟩⟩
  · rw [readReg_regFileAccess, addWithFlags_eq, immI_toNat]
    exact writeReg_writeFlags_effect ..
  · rw [readReg_regFileAccess, readReg_regFileAccess, addWithFlags_eq]
    exact writeReg_writeFlags_effect ..

/-- Settles O9: the difference and its flags, written by SUBS with either operand B. -/
theorem subsWritesDifferenceAndFlags : Obligations.SubsWritesDifferenceAndFlags := by
  intro rd rs rs2 imm s
  refine ⟨⟨_, rfl, ?_⟩, ⟨_, rfl, ?_⟩⟩
  · rw [readReg_regFileAccess, subWithFlags_eq, immI_toNat]
    exact writeReg_writeFlags_effect ..
  · rw [readReg_regFileAccess, readReg_regFileAccess, subWithFlags_eq]
    exact writeReg_writeFlags_effect ..

/-- Settles O10: the flags of the difference, written by CMP with either operand B. -/
theorem cmpWritesFlagsOnly : Obligations.CmpWritesFlagsOnly := by
  intro rs rs2 imm s
  refine ⟨⟨_, rfl, ?_⟩, ⟨_, rfl, ?_⟩⟩
  · rw [readReg_regFileAccess, compareFlags_eq, immI_toNat]
    exact writeFlags_effect ..
  · rw [readReg_regFileAccess, readReg_regFileAccess, compareFlags_eq]
    exact writeFlags_effect ..

/-! ### Signed overflow and the conditions after a compare (R180, R229) -/

/-- A 32-bit word as a signed number (R180). -/
theorem word_toInt_bounds (a : Word) : -2 ^ 31 ≤ a.toInt ∧ a.toInt < 2 ^ 31 := ⟨a.le_toInt, a.toInt_lt⟩

/-- The wrapped signed sum is the exact sum, or off by 2^32 where that does not fit. -/
theorem toInt_add_cases (a b : Word) :
    (a + b).toInt = a.toInt + b.toInt ∨ (a + b).toInt = a.toInt + b.toInt + 2 ^ 32 ∨
      (a + b).toInt = a.toInt + b.toInt - 2 ^ 32 := by
  simp only [BitVec.toInt_eq_toNat_cond, BitVec.toNat_add]
  omega

/-- The wrapped signed difference is the exact difference, or off by 2^32 where that does not fit. -/
theorem toInt_sub_cases (a b : Word) :
    (a - b).toInt = a.toInt - b.toInt ∨ (a - b).toInt = a.toInt - b.toInt + 2 ^ 32 ∨
      (a - b).toInt = a.toInt - b.toInt - 2 ^ 32 := by
  simp only [BitVec.toInt_eq_toNat_cond, BitVec.toNat_sub]
  omega

/-- The default OVF_ADD (R180, D39). -/
theorem ovfAdd_eq (a b : Word) :
    ovfAdd a b (a + b) = decide (a.toInt + b.toInt < -2 ^ 31 ∨ 2 ^ 31 ≤ a.toInt + b.toInt) := by
  have ha := word_toInt_bounds a
  have hb := word_toInt_bounds b
  have hr := word_toInt_bounds (a + b)
  have hsum := toInt_add_cases a b
  rw [ovfAdd, BitVec.msb_eq_toInt, BitVec.msb_eq_toInt, BitVec.msb_eq_toInt, Bool.eq_iff_iff]
  simp only [Bool.and_eq_true, beq_iff_eq, bne_iff_ne, ne_eq, decide_eq_decide, decide_eq_true_eq]
  omega

/-- The default OVF_SUB (R180, D39). -/
theorem ovfSub_eq (a b : Word) :
    ovfSub a b (a - b) = decide (a.toInt - b.toInt < -2 ^ 31 ∨ 2 ^ 31 ≤ a.toInt - b.toInt) := by
  have ha := word_toInt_bounds a
  have hb := word_toInt_bounds b
  have hr := word_toInt_bounds (a - b)
  have hdiff := toInt_sub_cases a b
  rw [ovfSub, BitVec.msb_eq_toInt, BitVec.msb_eq_toInt, BitVec.msb_eq_toInt, Bool.eq_iff_iff]
  simp only [Bool.and_eq_true, bne_iff_ne, ne_eq, decide_eq_decide, decide_eq_true_eq]
  omega

/-- Settles O11. -/
theorem defaultOverflowIsSignedOverflow : Obligations.DefaultOverflowIsSignedOverflow :=
  fun a b => ⟨ovfAdd_eq a b, ovfSub_eq a b⟩

/-- After a compare, N differs from O where A is below B as signed numbers: the sign of the wrapped difference is wrong
exactly where the difference overflows (R229). -/
theorem compare_sign_ne_overflow (a b : Word) :
    ((a - b).msb != ovfSub a b (a - b)) = decide (a.toInt < b.toInt) := by
  have ha := word_toInt_bounds a
  have hb := word_toInt_bounds b
  have hr := word_toInt_bounds (a - b)
  have hdiff := toInt_sub_cases a b
  rw [ovfSub_eq, BitVec.msb_eq_toInt, Bool.eq_iff_iff]
  simp only [bne_iff_ne, ne_eq, decide_eq_decide, decide_eq_true_eq]
  omega

/-- Settles O12: LT is the sign of the exact difference, and the other signed conditions are LT and Z. -/
theorem conditionsAfterCompareAreComparisons : Obligations.ConditionsAfterCompareAreComparisons := by
  intro a b
  have hlt := compare_sign_ne_overflow a b
  have hge : ((a - b).msb == ovfSub a b (a - b)) = decide (b.toInt ≤ a.toInt) := by
    have hneg : ((a - b).msb == ovfSub a b (a - b)) = !decide (a.toInt < b.toInt) := by rw [← hlt, bne, Bool.not_not]
    rw [hneg, ← decide_not, decide_eq_decide]
    omega
  have heq : (a == b) = decide (a.toInt = b.toInt) := by
    rw [Bool.eq_iff_iff, beq_iff_eq, decide_eq_true_eq, BitVec.toInt_inj]
  rw [flagsSub_eq]
  refine ⟨hge, hlt, ?_, ?_, rfl, ?_⟩
  · change (((a - b).msb == ovfSub a b (a - b)) && !(a == b)) = _
    rw [hge, heq, ← decide_not, ← Bool.decide_and, decide_eq_decide]
    omega
  · change (((a - b).msb != ovfSub a b (a - b)) || (a == b)) = _
    rw [hlt, heq, ← Bool.decide_or, decide_eq_decide]
    omega
  · change (!decide (b.toNat ≤ a.toNat)) = _
    rw [← decide_not, decide_eq_decide]
    omega

/-! ### Transfers of control (R220 to R228) -/

/-- A transfer of control, once (R220): `pc`, the commit, and nothing else. -/
theorem jump_effect (target : Word) (s : State) : MovesPcTo target s { regFileAccess s with pc := target } := by
  refine ⟨rfl, fun i => readReg_regFileAccess i s, by simp, by simp, fun a => by simp, by constructor <;> simp⟩

/-- The commit alone, as a transfer to where the fetch left `pc`. -/
theorem commit_effect (s : State) : MovesPcTo s.pc s (regFileAccess s) := by
  refine ⟨by simp, fun i => readReg_regFileAccess i s, by simp, by simp, fun a => by simp, by constructor <;> simp⟩

/-- Settles O29. -/
theorem branchSetsPcFromCur : Obligations.BranchSetsPcFromCur := by
  intro off s
  refine ⟨_, rfl, ?_⟩
  simp only [cur, offsetBi, regFileAccess_pc]
  exact jump_effect ..

/-- Settles O30: the link value is `cur + 4`, the `pc` the fetch left. -/
theorem callLinksAndBranches : Obligations.CallLinksAndBranches := by
  intro off s
  have hlink : alu .add (cur (regFileAccess s)) 4#32 = s.pc := by
    rw [cur, regFileAccess_pc, alu, BitVec.sub_add_cancel]
  refine ⟨_, rfl, ?pc, ?link, ?cstr, ?latch, fun a => by simp, by constructor <;> simp⟩
  case pc =>
    rw [writeReg_pc]
    simp only [cur, offsetBi, regFileAccess_pc]
  case link =>
    rw [hlink]
    exact regWritten_writeReg _ _ (fun j => readReg_regFileAccess j s)
  case cstr => exact (writeReg_cstr ..).trans (committedCstr_regFileAccess s)
  case latch => exact (writeReg_cstrLatch ..).trans (committedLatch_regFileAccess s)

/-- Settles O31. -/
theorem registerBranchesSetPc : Obligations.RegisterBranchesSetPc := by
  intro rs s
  have hbranch : MovesPcTo (readReg rs s) s (branchReg rs s) := by
    rw [branchReg, readReg_regFileAccess]
    exact jump_effect ..
  exact ⟨⟨_, rfl, hbranch⟩, ⟨_, rfl, hbranch⟩⟩

/-- A conditional branch, once (R227): the live flags decide, and the commit follows either way. -/
theorem branchCond_effect (c : Cond) (off19 : BitVec 19) (s : State) :
    MovesPcTo (bccTarget (condHolds c (flagsOf s.cstr)) off19 s) s (branchCond c off19 s) := by
  cases h : condHolds c (flagsOf s.cstr) with
  | true =>
    simp only [branchCond, bccTarget, cur, offsetBc, regFileAccess_pc, h, if_true]
    exact jump_effect ..
  | false =>
    simp only [branchCond, bccTarget, h, Bool.false_eq_true, if_false]
    exact commit_effect s

/-- Settles O32: each condition is one flag or its complement. -/
theorem oneFlagBranchesTestTheLiveFlag : Obligations.OneFlagBranchesTestTheLiveFlag :=
  fun off s =>
    ⟨⟨_, rfl, branchCond_effect .eq off s⟩, ⟨_, rfl, branchCond_effect .ne off s⟩, ⟨_, rfl, branchCond_effect .ov off s⟩,
      ⟨_, rfl, branchCond_effect .nv off s⟩, ⟨_, rfl, branchCond_effect .mi off s⟩, ⟨_, rfl, branchCond_effect .pz off s⟩,
      ⟨_, rfl, branchCond_effect .cc off s⟩, ⟨_, rfl, branchCond_effect .cs off s⟩⟩

/-- Settles O33: the signed conditions are made of N, O and Z. -/
theorem signedBranchesTestNAndO : Obligations.SignedBranchesTestNAndO :=
  fun off s =>
    ⟨⟨_, rfl, branchCond_effect .gt off s⟩, ⟨_, rfl, branchCond_effect .ge off s⟩, ⟨_, rfl, branchCond_effect .lt off s⟩,
      ⟨_, rfl, branchCond_effect .le off s⟩⟩

end Sys2Proof.Machine
end

section
/-! PROOFS. Loads and stores (R200 to R214), the taking of an exception (R280), and the system instructions (R240 to R252). -/

namespace Sys2Proof.Machine

/-! ### The bytes of a word (R51) -/

theorem toNat_append_eq {m n : Nat} (x : BitVec m) (y : BitVec n) : (x ++ y).toNat = x.toNat * 2 ^ n + y.toNat := by
  rw [BitVec.toNat_append, ← Nat.shiftLeft_add_eq_or_of_lt y.isLt, Nat.shiftLeft_eq]

theorem toNat_wordOfBytes (b0 b1 b2 b3 : Byte) :
    (wordOfBytes b0 b1 b2 b3).toNat = ((b3.toNat * 2 ^ 8 + b2.toNat) * 2 ^ 8 + b1.toNat) * 2 ^ 8 + b0.toNat := by
  change BitVec.toNat (b3 ++ b2 ++ b1 ++ b0 : BitVec (8 + 8 + 8 + 8)) = _
  simp only [toNat_append_eq]

/-- The little-endian word at an address, byte by byte (R51). -/
theorem ofNat_readLE_word (m : Memory) (a : Nat) :
    BitVec.ofNat 32 (Memory.readLE m a Width.word.bytes) =
      wordOfBytes (Memory.get m a) (Memory.get m (a + 1)) (Memory.get m (a + 2)) (Memory.get m (a + 3)) := by
  apply BitVec.eq_of_toNat_eq
  have h0 := (Memory.get m a).isLt
  have h1 := (Memory.get m (a + 1)).isLt
  have h2 := (Memory.get m (a + 2)).isLt
  have h3 := (Memory.get m (a + 3)).isLt
  simp only [toNat_wordOfBytes, BitVec.toNat_ofNat, Width.bytes, Memory.readLE, Nat.add_assoc, Nat.reduceAdd]
  omega

theorem ofNat_readLE_half (m : Memory) (a : Nat) :
    BitVec.ofNat 32 (Memory.readLE m a Width.half.bytes) = (Memory.get m (a + 1) ++ Memory.get m a).setWidth 32 := by
  apply BitVec.eq_of_toNat_eq
  simp only [toNat_append_eq, BitVec.toNat_ofNat, BitVec.toNat_setWidth, Width.bytes, Memory.readLE]
  omega

theorem ofNat_readLE_byte (m : Memory) (a : Nat) :
    BitVec.ofNat 32 (Memory.readLE m a Width.byte.bytes) = (Memory.get m a).setWidth 32 := by
  apply BitVec.eq_of_toNat_eq
  simp only [BitVec.toNat_ofNat, BitVec.toNat_setWidth, Width.bytes, Memory.readLE]
  omega

/-- The byte a little-endian write puts at offset `k` (R51). -/
theorem ofNat_div_pow (v : Word) (k : Nat) : BitVec.ofNat 8 (v.toNat / 256 ^ k) = v.extractLsb' (8 * k) 8 := by
  apply BitVec.eq_of_toNat_eq
  have hpow : 256 ^ k = 2 ^ (8 * k) := by rw [Nat.pow_mul]
  rw [BitVec.toNat_ofNat, BitVec.extractLsb'_toNat, hpow, Nat.shiftRight_eq_div_pow]

/-! ### Loads (R203 to R207) -/

/-- A load whose read is admitted: the value goes to the register, and nothing else changes (R205). -/
theorem load_of_admitted {w : Width} {rb : RegIdx} {off : MemOffset} {s : State} {a : Nat}
    (haddr : (effAddr rb off (regFileAccess s)).toNat = a) (hstart : readStart a (committedPriv s) = none)
    (hcross : crossing a w.bytes = false) (rd : RegIdx) :
    WritesOneRegister rd (BitVec.ofNat 32 (Memory.readLE s.mem a w.bytes)) s (load w rd rb off s) := by
  subst haddr
  have hread := checkedRead_of_admitted (k := .data) hstart hcross s.mem
  rcases load_cases w rd rb off s with ⟨v, hv, h⟩ | ⟨e, he, _⟩
  · rw [hread] at hv
    cases hv
    rw [h, writeReg_regFileAccess]
    exact writeReg_effect ..
  · rw [hread] at he
    cases he

/-- Settles O25: the value read, width by width. -/
theorem loadsWriteTheZeroExtendedBytes : Obligations.LoadsWriteTheZeroExtendedBytes := by
  intro rd rb off s a haddr hstart
  refine ⟨fun hcross => ⟨_, rfl, ?_⟩, fun hcross => ⟨_, rfl, ?_⟩, ⟨_, rfl, ?_⟩⟩
  · have heffect := load_of_admitted (w := .word) haddr hstart hcross rd
    rwa [ofNat_readLE_word] at heffect
  · have heffect := load_of_admitted (w := .half) haddr hstart hcross rd
    rwa [ofNat_readLE_half] at heffect
  · have heffect := load_of_admitted (w := .byte) haddr hstart (crossing_one a) rd
    rwa [ofNat_readLE_byte] at heffect

/-! ### Stores (R204, R209 to R211) -/

/-- A store whose write is admitted: its bytes, and nothing else but the commit (R209). -/
theorem store_of_admitted {w : Width} {rb : RegIdx} {off : MemOffset} {s : State} {a : Nat} (hwf : Memory.wf s.mem = true)
    (haddr : (effAddr rb off (regFileAccess s)).toNat = a) (hstart : writeStart a (committedPriv s) = none)
    (hcross : crossing a w.bytes = false) (rdata : RegIdx) :
    StoresBytes a w.bytes (readReg rdata s) s (store w rdata rb off s) := by
  subst haddr
  have hadmitted := checkedWrite_of_admitted hstart hcross (readReg rdata s) s.mem
  rcases store_cases w rdata rb off s with ⟨m, hwrite, h⟩ | ⟨e, he, _⟩
  · rw [h]
    refine ⟨fun k hk => ?_, fun b hb => ?_, fun i => readReg_regFileAccess i s, by simp, by simp, by simp,
      by constructor <;> simp⟩
    · rw [get_of_checkedWrite hwf hwrite, if_pos ⟨by omega, by omega⟩, Nat.add_sub_cancel_left, ofNat_div_pow]
    · rw [get_of_checkedWrite hwf hwrite, if_neg (by omega)]
  · rw [hadmitted] at he
    cases he

/-- Settles O26, width by width. -/
theorem storesWriteExactlyTheirBytes : Obligations.StoresWriteExactlyTheirBytes :=
  fun rdata _ _ _ a hwf haddr hstart =>
    ⟨fun hcross => ⟨_, rfl, store_of_admitted (w := .word) hwf haddr hstart hcross rdata⟩,
      fun hcross => ⟨_, rfl, store_of_admitted (w := .half) hwf haddr hstart hcross rdata⟩,
      ⟨_, rfl, store_of_admitted (w := .byte) hwf haddr hstart (crossing_one a) rdata⟩⟩

/-! ### Accesses that fail (R69, R212) -/

theorem load_of_error {w : Width} {rb : RegIdx} {off : MemOffset} {s : State} {e : MemoryError}
    (h : checkedRead .data (effAddr rb off (regFileAccess s)) w (committedPriv s) s.mem = .error e) (rd : RegIdx) :
    load w rd rb off s = accessError e (committedState s) := by
  rcases load_cases w rd rb off s with ⟨v, hv, _⟩ | ⟨e', he, hload⟩
  · rw [h] at hv
    cases hv
  · rw [h] at he
    cases he
    rw [hload, regFileAccess_eq_committedState]

theorem store_of_error {w : Width} {rb rdata : RegIdx} {off : MemOffset} {s : State} {e : MemoryError}
    (h : checkedWrite (effAddr rb off (regFileAccess s)) w (readReg rdata s) (committedPriv s) s.mem = .error e) :
    store w rdata rb off s = accessError e (committedState s) := by
  rcases store_cases w rdata rb off s with ⟨m, hm, _⟩ | ⟨e', he, hstore⟩
  · rw [h] at hm
    cases hm
  · rw [h] at he
    cases he
    rw [hstore, regFileAccess_eq_committedState]

theorem accessError_kernel {s : State} (h : s.priv = .kernel) (e : MemoryError) :
    accessError e s = fatalState (.kernelData e) s := by
  rw [accessError, h, fatal_eq_fatalState]

theorem accessError_user {s : State} (h : s.priv = .user) (e : MemoryError) :
    accessError e s = deliver (.dataAbort e) s := by
  rw [accessError, h]

/-- The privilege of the committed state is the one the access is checked under (R127, R134). -/
theorem committedState_priv (s : State) : (committedState s).priv = committedPriv s := by
  rw [← regFileAccess_eq_committedState, regFileAccess_priv]

/-- Settles O27: the access fails under the committed privilege, and the kernel's error is fatal. -/
theorem kernelAccessErrorsAreFatal : Obligations.KernelAccessErrorsAreFatal := by
  intro r rb off s e hkernel
  have hfatal : accessError e (committedState s) = fatalState (.kernelData e) (committedState s) :=
    accessError_kernel ((committedState_priv s).trans hkernel) e
  have hload : ∀ w, checkedRead .data (effAddr rb off (regFileAccess s)) w .kernel s.mem = .error e →
      load w r rb off s = fatalState (.kernelData e) (committedState s) :=
    fun w h => (load_of_error (by rwa [hkernel]) r).trans hfatal
  have hstore : ∀ w, checkedWrite (effAddr rb off (regFileAccess s)) w (readReg r s) .kernel s.mem = .error e →
      store w r rb off s = fatalState (.kernelData e) (committedState s) :=
    fun w h => (store_of_error (by rwa [hkernel])).trans hfatal
  exact ⟨fun h => congrArg _ (hload _ h), fun h => congrArg _ (hload _ h), fun h => congrArg _ (hload _ h),
    fun h => congrArg _ (hstore _ h), fun h => congrArg _ (hstore _ h), fun h => congrArg _ (hstore _ h)⟩

/-! ### Taking an exception (R280, R281) -/

theorem enterHandler_effect (e : GuestException) (s : State) : EntersHandler e.esr s (enterHandler e s) :=
  ⟨rfl, cstrSet_priv_true s.cstr, rfl, rfl, rfl, fun i => readReg_enterHandler i e s, rfl, rfl, rfl, rfl, rfl, rfl, rfl⟩

/-- The saved address and the tag do not overlap, even where the record wraps (R37). -/
theorem savedIp_ne_tag (p : Word) {k : Nat} (hk : k < 4) : (p + Config.psSavedIp).toNat + k ≠ (p + Config.psTag).toNat := by
  simp only [Config.psSavedIp, Config.psTag, BitVec.toNat_add, BitVec.toNat_ofNat]
  omega

/-- Delivery to a record that can be written saves `pc` and the tag, then enters the handler (R280). -/
theorem deliver_of_writable {s : State} (h : PsWritable s) (hp : psPointer s ≠ 0#32) (e : GuestException) :
    ∃ m1 m2, checkedWrite (psPointer s + Config.psSavedIp) .word s.pc .kernel s.mem = .ok m1 ∧
      checkedWrite (psPointer s + Config.psTag) .byte (e.tag.setWidth 32) .kernel m1 = .ok m2 ∧
      deliver e s = enterHandler e { s with mem := m2 } := by
  obtain ⟨hip, hcross, htag⟩ := h.resolve_left hp
  have hwriteIp := checkedWrite_of_admitted (w := .word) hip hcross s.pc s.mem
  rcases deliver_cases e s with ⟨h0, _⟩ | ⟨m1, m2, _, h1, h2, hd⟩ | ⟨_, _, h1, _⟩ | ⟨m1, _, _, _, h2, _⟩
  · exact absurd h0 hp
  · exact ⟨m1, m2, h1, h2, hd⟩
  · rw [Config.psSavedIp, hwriteIp] at h1
    cases h1
  · rw [Config.psTag, checkedWrite_of_admitted (w := .byte) htag (crossing_one _)] at h2
    cases h2

/-- What delivery does where the active record, if there is one, can be written (R280, R281). -/
theorem deliver_effect {s : State} (hwf : Memory.wf s.mem = true) (h : PsWritable s) (e : GuestException) :
    Delivers e.esr e.tag s (deliver e s) := by
  by_cases hp : psPointer s = 0#32
  · have hd : deliver e s = enterHandler e s := by
      rw [deliver, activePs_eq]
      exact if_pos hp
    rw [hd]
    exact ⟨enterHandler_effect e s, fun _ _ => rfl, fun hne => absurd hp hne⟩
  · obtain ⟨m1, m2, hip, htag, hd⟩ := deliver_of_writable h hp e
    have hwf1 := checkedWrite_wf hip hwf
    refine ⟨?_, fun a ha => get_deliver_of_not_inPsSlots hwf e ha, fun _ => ⟨fun k hk => ?_, ?_⟩⟩
    · rw [hd]
      exact enterHandler_effect e { s with mem := m2 }
    · have hne := savedIp_ne_tag (psPointer s) hk
      have hin : (psPointer s + Config.psSavedIp).toNat + k < (psPointer s + Config.psSavedIp).toNat + Width.word.bytes :=
        Nat.add_lt_add_left hk _
      rw [hd, enterHandler_mem]
      change Memory.get m2 ((psPointer s + Config.psSavedIp).toNat + k) = _
      rw [get_of_checkedWrite hwf1 htag, if_neg (by simp only [Width.bytes]; omega), get_of_checkedWrite hwf hip,
        if_pos ⟨by omega, hin⟩, Nat.add_sub_cancel_left, ofNat_div_pow]
    · rw [hd, enterHandler_mem]
      change Memory.get m2 (psPointer s + Config.psTag).toNat = _
      rw [get_of_checkedWrite hwf1 htag, if_pos ⟨le_rfl, by simp [Width.bytes]⟩, Nat.sub_self, Nat.pow_zero, Nat.div_one,
        BitVec.ofNat_toNat, BitVec.setWidth_setWidth_of_le _ (by decide), BitVec.setWidth_eq]

/-- The ESR value of an exception with a detail: the tag's byte over the error's code (R276). -/
theorem append_eq_or (x y : BitVec 8) : x ++ y = (x ++ 0#8) ||| y.setWidth 16 := by
  rw [BitVec.append_def, BitVec.append_def]
  simp

/-- Settles O28: the access fails under the committed privilege, and the user's error is the data abort. -/
theorem userAccessErrorsAreDataAborts : Obligations.UserAccessErrorsAreDataAborts := by
  intro r rb off s e huser hwf hps
  have haborts : Delivers (0x0400#16 ||| e.code.setWidth 16) 4#8 (committedState s) (accessError e (committedState s)) := by
    rw [accessError_user ((committedState_priv s).trans huser)]
    have heffect := deliver_effect (s := committedState s) hwf hps (.dataAbort e)
    rwa [GuestException.esr, append_eq_or] at heffect
  have hload : ∀ w, checkedRead .data (effAddr rb off (regFileAccess s)) w .user s.mem = .error e →
      Delivers (0x0400#16 ||| e.code.setWidth 16) 4#8 (committedState s) (load w r rb off s) := by
    intro w h
    rwa [load_of_error (by rwa [huser]) r]
  have hstore : ∀ w, checkedWrite (effAddr rb off (regFileAccess s)) w (readReg r s) .user s.mem = .error e →
      Delivers (0x0400#16 ||| e.code.setWidth 16) 4#8 (committedState s) (store w r rb off s) := by
    intro w h
    rwa [store_of_error (by rwa [huser])]
  exact ⟨fun h => ⟨_, rfl, hload _ h⟩, fun h => ⟨_, rfl, hload _ h⟩, fun h => ⟨_, rfl, hload _ h⟩,
    fun h => ⟨_, rfl, hstore _ h⟩, fun h => ⟨_, rfl, hstore _ h⟩, fun h => ⟨_, rfl, hstore _ h⟩⟩

/-- Settles O34: SYSCALL delivers in either privilege, after the commit. -/
theorem syscallTakesItsException : Obligations.SyscallTakesItsException := by
  intro s hwf hps
  refine ⟨_, rfl, ?_⟩
  rw [readReg_regFileAccess, regFileAccess_eq_committedState]
  exact deliver_effect (s := committedState s) hwf hps (.syscall ((readReg 0#5 s).setWidth 16))

/-- Settles O35: the check comes before the commit, so that the delivery is on the state as it was. -/
theorem userModePrivilegedInstructionsAreViolations : Obligations.UserModePrivilegedInstructionsAreViolations := by
  intro r s huser hwf hps i hi
  have hviolates : exec i s = .next (deliver .privViolation s) := by
    simp only [List.mem_cons, List.not_mem_nil, or_false] at hi
    rcases hi with rfl | rfl | rfl | rfl | rfl | rfl | rfl | rfl <;>
      exact congrArg Host.Outcome.next (privileged_user _ huser)
  exact ⟨_, hviolates, deliver_effect hwf hps .privViolation⟩

end Sys2Proof.Machine
end

section
/-! PROOFS. The system instructions in kernel mode (R240 to R252): HLT, SI, DI, ERET, LDIR, MVCSTR, LDCSTR, RESR, and the one
hazard (R320). -/

namespace Sys2Proof.Machine

/-! ### The halts (R243, R244, R294) -/

/-- A report that is not fatal leaves the flag alone (R290, R296). -/
theorem callHost_of_not_fatal {c : CoreCall} (h : c.isFatal = false) (s : State) :
    callHost c s = { s with outbox := c :: s.outbox } := by
  simp [callHost, h]

/-- The halt check reads memory alone (R294). -/
theorem haltVerdict_congr {s t : State} (h : t.mem = s.mem) : haltVerdict t = haltVerdict s := by
  unfold haltVerdict activePs
  rw [h]

theorem haltVerdict_of_no_record {s : State} (h : psPointer s = 0#32) : haltVerdict s = .haltedClean := by
  rw [haltVerdict, activePs_eq]
  exact if_pos h

/-- The tag of a record the kernel may read decides the report (R294). -/
theorem haltVerdict_of_readable_tag {s : State} (h : psPointer s ≠ 0#32)
    (hread : readStart (psPointer s + 566#32).toNat .kernel = none) :
    haltVerdict s =
      if Memory.get s.mem (psPointer s + 566#32).toNat = 0#8 then .haltedClean else .deliverCoredump := by
  have hstart : startError .data (psPointer s + Config.psTag).toNat .kernel = none := by
    rw [startError, Config.psTag, hread]
  have hok : checkedRead .data (psPointer s + Config.psTag) .byte .kernel s.mem =
      .ok ((Memory.get s.mem (psPointer s + 566#32).toNat).setWidth 32) := by
    rw [checkedRead_of_admitted (w := .byte) hstart (crossing_one _), ofNat_readLE_byte, Config.psTag]
  rcases haltVerdict_cases s with ⟨h0, _⟩ | ⟨_, _, he, _⟩ | ⟨t, _, ht, hv⟩
  · exact absurd h0 h
  · rw [hok] at he
    cases he
  · rw [hok] at ht
    cases ht
    rw [hv]
    exact if_congr (by bv_omega) rfl rfl

/-- A read that may not start or crosses an edge fails (R66). -/
theorem checkedRead_error_of_refused {k : ReadKind} {a : Word} {w : Width} {p : Priv}
    (h : startError k a.toNat p ≠ none ∨ crossing a.toNat w.bytes = true) (m : Memory) :
    ∃ e, checkedRead k a w p m = .error e := by
  rcases checkedRead_cases k a w p m with ⟨e, _, he⟩ | ⟨_, _, he⟩ | ⟨hstart, hcross, _⟩
  · exact ⟨e, he⟩
  · exact ⟨_, he⟩
  · simp [hstart, hcross] at h

theorem haltVerdict_of_read_error {s : State} {e : MemoryError} (h : psPointer s ≠ 0#32)
    (herror : checkedRead .data (psPointer s + Config.psTag) .byte .kernel s.mem = .error e) :
    haltVerdict s = .deliverFatal .psAccess := by
  rcases haltVerdict_cases s with ⟨h0, _⟩ | ⟨_, _, _, hv⟩ | ⟨_, _, ht, _⟩
  · exact absurd h0 h
  · exact hv
  · rw [herror] at ht
    cases ht

/-- A privileged sub-opcode in kernel mode works on the committed state (R125, R127). -/
theorem privileged_of_kernel {s : State} (h : s.priv = .kernel) (effect : State → State) :
    privileged effect s = effect (committedState s) := by
  rw [privileged_kernel effect h, regFileAccess_eq_committedState]

/-- A plain HLT in kernel mode enters HALTED and makes the halt check, whose verdict is read off memory alone (R243). -/
theorem exec_hlt_plain {s : State} (hkernel : s.priv = .kernel) (hplain : (committedCstr s).getLsbD 7 = false) :
    exec .hlt s = .next (callHost (haltVerdict s) { committedState s with status := .halted }) := by
  have hverdict : haltVerdict { committedState s with status := .halted } = haltVerdict s := haltVerdict_congr rfl
  have hhalt : haltEffect (committedState s) = plainHalt (committedState s) := if_neg (Bool.eq_false_iff.mp hplain)
  rw [exec, execHlt, privileged_of_kernel hkernel, hhalt, plainHalt, haltCheck, hverdict]

/-- Settles O36: by what the halt check finds in the active record. -/
theorem plainHaltReportsTheHaltCheck : Obligations.PlainHaltReportsTheHaltCheck := by
  intro s hkernel hplain
  rw [exec_hlt_plain hkernel hplain]
  refine ⟨fun hp => ?_, fun hp hread => ?_, fun hp hread => ?_⟩
  · rw [haltVerdict_of_no_record hp, callHost_of_not_fatal rfl]
    rfl
  · rw [haltVerdict_of_readable_tag hp hread, callHost_of_not_fatal]
    · rfl
    · split <;> rfl
  · have hstart : startError .data (psPointer s + Config.psTag).toNat .kernel ≠ none := by rwa [startError, Config.psTag]
    obtain ⟨e, he⟩ := checkedRead_error_of_refused (w := .byte) (.inl hstart) s.mem
    rw [haltVerdict_of_read_error hp he]
    exact congrArg Host.Outcome.next (fatal_eq_fatalState ..)

/-- Settles O37: by the draw of the staging. -/
theorem ioHaltStagesTheDescriptor : Obligations.IoHaltStagesTheDescriptor := by
  intro s hkernel hio
  have hstage : haltEffect (committedState s) = stageIo (committedState s) := if_pos hio
  rw [exec, execHlt, privileged_of_kernel hkernel, hstage, stageIo]
  cases h : Config.stagingSucceeds s.ioDraws with
  | true =>
    rw [if_pos (show Config.stagingSucceeds (committedState s).ioDraws = true from h), callHost_of_not_fatal rfl]
    rfl
  | false =>
    rw [if_neg (show ¬Config.stagingSucceeds (committedState s).ioDraws = true from Bool.eq_false_iff.mp h),
      fatal_eq_fatalState]
    rfl

/-! ### Interrupt enable, the special registers and the latch (R245 to R252) -/

/-- Settles O38: writing IE is or-ing or and-ing its mask. -/
theorem siAndDiWriteInterruptEnable : Obligations.SiAndDiWriteInterruptEnable := by
  intro s hkernel
  rw [exec, execSi, exec, execDi, privileged_of_kernel hkernel, privileged_of_kernel hkernel]
  exact ⟨rfl, rfl⟩

/-- Settles O41: the register write finds the commit done. -/
theorem systemReadsWriteTheSpecialRegister : Obligations.SystemReadsWriteTheSpecialRegister := by
  intro rd s hkernel
  refine ⟨⟨_, rfl, ?_⟩, ⟨_, rfl, ?_⟩, ⟨_, rfl, ?_⟩⟩
  · rw [privileged_kernel _ hkernel, regFileAccess_pc, writeReg_regFileAccess]
    exact writeReg_effect ..
  · rw [privileged_kernel _ hkernel, regFileAccess_cstr, writeReg_regFileAccess]
    exact writeReg_effect ..
  · rw [privileged_kernel _ hkernel, regFileAccess_esr, writeReg_regFileAccess]
    exact writeReg_effect ..

/-- MVCSTR's write-back on a committed state: the marker over the low 15 bits, the live CSTR kept (R251, R33). -/
theorem latchCstr_regFileAccess (v : Word) (s : State) :
    latchCstr v (regFileAccess s) = { committedState s with cstrLatch := v.setWidth 16 ||| 0x8000#16 } := by
  rw [latchCstr, regFileAccess_idem, regFileAccess_eq_committedState]
  rfl

/-- Settles O42. -/
theorem mvcstrLatchesTheValue : Obligations.MvcstrLatchesTheValue := by
  intro rs s hkernel
  rw [exec, execMvcstr, privileged_kernel _ hkernel, readReg_regFileAccess, latchCstr_regFileAccess]

/-! ### The exception return (R248) -/

theorem exec_eret {s : State} (hkernel : s.priv = .kernel) :
    exec .eret s = .next (returnFromException (committedState s)) := by
  rw [exec, execEret, privileged_of_kernel hkernel]

theorem returnFromException_of_no_record {s : State} (h : psPointer s = 0#32) :
    returnFromException s = fatalState .eretNoProcess s := by
  rw [returnFromException, activePs_eq, ← fatal_eq_fatalState]
  exact if_pos h

theorem returnFromException_of_read {s : State} {ip : Word} (h : psPointer s ≠ 0#32)
    (hread : checkedRead .data (psPointer s + Config.psSavedIp) .word .kernel s.mem = .ok ip) :
    returnFromException s = { s with pc := ip, cstr := s.cstr &&& 0xFFDF#16 } := by
  rcases returnFromException_cases s with ⟨h0, _⟩ | ⟨_, _, he, _⟩ | ⟨ip', _, hip, hr⟩
  · exact absurd h0 h
  · rw [hread] at he
    cases he
  · rw [hread] at hip
    cases hip
    exact hr

theorem returnFromException_of_read_error {s : State} {e : MemoryError} (h : psPointer s ≠ 0#32)
    (herror : checkedRead .data (psPointer s + Config.psSavedIp) .word .kernel s.mem = .error e) :
    returnFromException s = fatalState .psAccess s := by
  rcases returnFromException_cases s with ⟨h0, _⟩ | ⟨_, _, _, hr⟩ | ⟨_, _, hip, _⟩
  · exact absurd h0 h
  · rw [hr, fatal_eq_fatalState]
  · rw [herror] at hip
    cases hip

/-- Settles O39: the saved address is read and PRIV cleared. -/
theorem eretRestoresPcAndUserMode : Obligations.EretRestoresPcAndUserMode := by
  intro s hkernel hp hstart hcross
  have hread := checkedRead_of_admitted (k := .data) (a := psPointer s + Config.psSavedIp) (w := .word) (p := .kernel)
    hstart hcross s.mem
  rw [exec_eret hkernel, returnFromException_of_read (s := committedState s) hp hread]
  rfl

/-- Settles O40: no record, or one that cannot be read. -/
theorem eretWithoutProcessIsFatal : Obligations.EretWithoutProcessIsFatal := by
  intro s hkernel
  rw [exec_eret hkernel]
  refine ⟨fun hp => ?_, fun hp hrefused => ?_⟩
  · rw [returnFromException_of_no_record (s := committedState s) hp]
  · obtain ⟨e, he⟩ := checkedRead_error_of_refused (k := .data) (a := psPointer s + Config.psSavedIp) (w := .word)
      (p := .kernel) hrefused s.mem
    rw [returnFromException_of_read_error (s := committedState s) hp he]

/-! ### The hazard after MVCSTR (R320, R321) -/

/-- The condition table on a status word's bits is R228's on its flags (D12). -/
theorem condOn_eq (c : Cond) (x : Half) : condOn c x = condHolds c (flagsOf x) := by
  cases c <;> rfl

/-- What a latched value commits as: its low 15 bits (R33, R40). -/
theorem commit_of_latched {s : State} {x : Half} (h : s.cstrLatch = x ||| 0x8000#16) :
    committedCstr s = x &&& 0x7FFF#16 ∧ committedLatch s = 0#16 := by
  have hpending : s.cstrLatch.getLsbD 15 = true := by
    rw [h]
    simp
  rw [committedCstr, committedLatch, if_pos hpending, if_pos hpending, h]
  have hmarker : 0x8000#16 &&& 0x7FFF#16 = 0#16 := by decide
  exact ⟨by rw [BitVec.and_or_distrib_right, hmarker, BitVec.or_zero], rfl⟩

/-- The low 15 bits of a register, through CSTR and back (R249, R251). -/
theorem setWidth_low15 (v : Word) : (v.setWidth 16 &&& 0x7FFF#16).setWidth 32 = v &&& 0x7FFF#32 := by
  apply BitVec.eq_of_toNat_eq
  simp only [BitVec.toNat_setWidth, BitVec.toNat_and, BitVec.toNat_ofNat]
  have h16 : ∀ n : Nat, n &&& 0x7FFF = n % 2 ^ 15 := fun n => Nat.and_two_pow_sub_one_eq_mod n 15
  simp only [Nat.reduceMod, Nat.reducePow, h16]
  omega

/-- Settles O43: the branch tests the flags before the commit, LDCSTR reads after it. -/
theorem instructionAfterMvcstrSplitsOldAndNew : Obligations.InstructionAfterMvcstrSplitsOldAndNew := by
  intro rs rd off s t hkernel hmvcstr
  rw [mvcstrLatchesTheValue rs s hkernel] at hmvcstr
  injection hmvcstr with ht
  have hlatch : (advance t).cstrLatch = (readReg rs s).setWidth 16 ||| 0x8000#16 := by rw [← ht, advance_cstrLatch]
  have hcstr : (advance t).cstr = committedCstr s := by rw [← ht, advance_cstr]; rfl
  obtain ⟨hcommit, hclear⟩ := commit_of_latched hlatch
  refine ⟨fun c => ?_, fun hstays => ?_⟩
  · obtain ⟨hpc, _, hcstr', hlatch', _⟩ := branchCond_effect c off (advance t)
    refine ⟨_, exec_condInstr c off (advance t), ?_, hcstr'.trans hcommit, hlatch'.trans hclear⟩
    rw [hpc, hcstr, condOn_eq]
  · have hkernel' : (advance t).priv = .kernel := by rw [State.priv, hcstr, hstays]
    obtain ⟨_, ⟨u, hu, ⟨hrd, _⟩, _, _, hlatch', _⟩, _⟩ := systemReadsWriteTheSpecialRegister rd (advance t) hkernel'
    refine ⟨u, hu, ?_, hlatch'.trans hclear⟩
    have hkept : readReg rd (advance t) = readReg rd s := by
      rw [readReg_advance, ← ht]
      rfl
    rw [hrd, hkept, hcommit, setWidth_low15]

end Sys2Proof.Machine
end

section
/-! PROOFS. The cycle around the instruction (R120 to R139), the errors it takes (R122, R124, R280), the host between cycles
(R295 to R297) and reset (R41). -/

namespace Sys2Proof.Machine

/-! ### The fetch and the decoded instruction (R120, R121) -/

/-- The fetch of a running core leaves RUNNING and `pc` advanced (R121). -/
theorem advance_beginCycle {s : State} (h : s.status = .running ∨ s.status = .exception) :
    advance (beginCycle s) = fetchedState s := by
  rcases h with h | h <;> simp [beginCycle, h, advance, fetchedState]

theorem cycle_of_fetch_error {s : State} {e : MemoryError} (h : fetchWord s = .error e) :
    cycle s = .next (endOfCycle (fetchError e (advance (beginCycle s)))) := by
  rw [cycle, fetchWord_beginCycle, h]

theorem cycle_of_decode_error {s : State} {w : Word} {e : DecodeError} (hfetch : fetchWord s = .ok w)
    (hdecode : decodeWord w = .error e) : cycle s = .next (endOfCycle (invalidOpcode (advance (beginCycle s)))) := by
  simp only [cycle, fetchWord_beginCycle, hfetch, hdecode]

theorem cycle_of_decoded {s : State} {w : Word} {i : Instr} (hfetch : fetchWord s = .ok w) (hdecode : decodeWord w = .ok i) :
    cycle s = finishCycle (exec i (advance (beginCycle s))) := by
  simp only [cycle, fetchWord_beginCycle, hfetch, hdecode]

/-- A fetch that is admitted gives the little-endian word at `pc` (R51, R66, R121). -/
theorem fetchWord_of_admitted {s : State} (hstart : fetchStart s.pc.toNat s.priv = none)
    (hcross : crossing s.pc.toNat 4 = false) :
    fetchWord s = .ok (wordOfBytes (Memory.get s.mem s.pc.toNat) (Memory.get s.mem (s.pc.toNat + 1))
      (Memory.get s.mem (s.pc.toNat + 2)) (Memory.get s.mem (s.pc.toNat + 3))) := by
  rw [← ofNat_readLE_word]
  exact checkedRead_of_admitted (k := .fetch) (w := .word) hstart hcross s.mem

/-- Four bytes decode as their word does (R51, R90). -/
theorem decodeWord_of_decodeBytes {b0 b1 b2 b3 : Byte} {i : Instr} (h : decodeBytes [b0, b1, b2, b3] = .ok (i, [])) :
    decodeWord (wordOfBytes b0 b1 b2 b3) = .ok i := by
  rw [decodeBytes] at h
  split at h
  next j hj =>
    injection h with h
    injection h with hij
    rw [hj, hij]
  next => cases h

/-- A `run` at the head of the schedule is a cycle of the core (R143). -/
theorem step_run {s : State} (h : Runs s) (rest : List HostInput) :
    step { s with hostInputs := .run :: rest } = cycle { s with hostInputs := rest } := by
  obtain ⟨hfatal, hpaused, hstatus, _⟩ := h
  have hblocked : blocked { s with hostInputs := rest } = none := blocked_of_running hpaused hstatus
  have hstep : step { s with hostInputs := .run :: rest } = coreStep { s with hostInputs := rest } :=
    if_neg (Bool.eq_false_iff.mp hfatal)
  rw [hstep, coreStep, hblocked]

/-- Settles O44. -/
theorem stepRunsTheDecodedInstruction : Obligations.StepRunsTheDecodedInstruction := by
  intro s i hruns hstart hcross hbytes
  have hfetch := fetchWord_of_admitted hstart hcross
  have hdecode := decodeWord_of_decodeBytes hbytes
  have hstatus : s.status = .running ∨ s.status = .exception := by
    obtain ⟨_, _, hstatus, _⟩ := hruns
    exact hstatus
  refine ⟨?_, fun rest => ?_⟩
  · rw [step_of_runs hruns, cycle_of_decoded hfetch hdecode, advance_beginCycle hstatus]
  · rw [step_run hruns, cycle_of_decoded (s := { s with hostInputs := rest }) hfetch hdecode,
      advance_beginCycle (s := { s with hostInputs := rest }) hstatus]

/-! ### The end of the cycle (R139) -/

theorem endOfCycle_of_fatal {s : State} (h : s.fatalFlag = true) : endOfCycle s = s := by
  rw [endOfCycle, if_pos h]

theorem endOfCycle_of_expired {s : State} (hsafe : s.fatalFlag = false) (hexp : safetyExpired s = true) :
    endOfCycle s = haltCheck { s with cyc := s.cyc + 1, status := .halted } := by
  have hverdict : haltVerdict { s with cyc := s.cyc + 1, status := .halted } = haltVerdict s := haltVerdict_congr rfl
  rw [haltCheck, hverdict]
  simp [endOfCycle, hsafe, hexp, callHost]

theorem endOfCycle_of_not_expired {s : State} (hsafe : s.fatalFlag = false) (hexp : safetyExpired s = false) :
    endOfCycle s = { s with cyc := s.cyc + 1 } := by
  simp [endOfCycle, hsafe, hexp]

/-- Only a core in a status in which cycles run is halted by the counter (R139). -/
theorem safetyExpired_eq (s : State) :
    safetyExpired s = true ↔ (s.status = .running ∨ s.status = .exception) ∧ Config.safetyLimit ≤ s.cyc + 1 := by
  rw [safetyExpired]
  cases s.status <;> simp [Status.active]

/-- Settles O45: by the flag, the status and the counter. -/
theorem endOfCycleCountsAndHalts : Obligations.EndOfCycleCountsAndHalts := by
  refine fun s => ⟨rfl, endOfCycle_of_fatal, fun hsafe hstatus => ?_, fun hsafe hstatus => ?_⟩
  · by_cases hlimit : Config.safetyLimit ≤ s.cyc + 1
    · rw [if_pos hlimit, endOfCycle_of_expired hsafe ((safetyExpired_eq s).mpr ⟨hstatus, hlimit⟩)]
    · rw [if_neg hlimit, endOfCycle_of_not_expired hsafe]
      exact Bool.eq_false_iff.mpr fun hexp => hlimit ((safetyExpired_eq s).mp hexp).2
  · apply endOfCycle_of_not_expired hsafe
    rw [Bool.eq_false_iff, ne_eq, safetyExpired_eq]
    rcases hstatus with h | h <;> simp [h]

/-- A fatal fault has stopped the cycle before its end (R290). -/
theorem endOfCycle_fatalState (r : FatalReason) (s : State) : endOfCycle (fatalState r s) = fatalState r s :=
  endOfCycle_of_fatal rfl

/-! ### Fetch errors and OP_ERROR (R122, R124) -/

theorem fetchError_kernel {s : State} (h : s.priv = .kernel) (e : MemoryError) :
    fetchError e s = fatal (.kernelFetch e) s := by
  rw [fetchError, h]

theorem fetchError_user {s : State} (h : s.priv = .user) (e : MemoryError) :
    fetchError e s = deliver (.instrAbort e) s := by
  rw [fetchError, h]

theorem invalidOpcode_kernel {s : State} (h : s.priv = .kernel) : invalidOpcode s = fatal .kernelInvalidOpcode s := by
  rw [invalidOpcode, h]

theorem invalidOpcode_user {s : State} (h : s.priv = .user) : invalidOpcode s = deliver .invalidInstr s := by
  rw [invalidOpcode, h]

theorem step_of_fetch_error {s : State} {e : MemoryError} (hruns : Runs s) (h : fetchWord s = .error e) :
    step s = .next (endOfCycle (fetchError e (fetchedState s))) := by
  obtain ⟨_, _, hstatus, _⟩ := id hruns
  rw [step_of_runs hruns, cycle_of_fetch_error h, advance_beginCycle hstatus]

theorem step_of_decode_error {s : State} {w : Word} {e : DecodeError} (hruns : Runs s) (hfetch : fetchWord s = .ok w)
    (hdecode : decodeWord w = .error e) : step s = .next (endOfCycle (invalidOpcode (fetchedState s))) := by
  obtain ⟨_, _, hstatus, _⟩ := id hruns
  rw [step_of_runs hruns, cycle_of_decode_error hfetch hdecode, advance_beginCycle hstatus]

/-- Settles O46: by the privilege in force at the fetch. -/
theorem fetchErrorsByPrivilege : Obligations.FetchErrorsByPrivilege := by
  intro s e hruns hfetch
  rw [step_of_fetch_error hruns hfetch]
  refine ⟨fun hkernel => ?_, fun huser hwf hps => ⟨_, rfl, ?_⟩⟩
  · rw [fetchError_kernel (s := fetchedState s) hkernel, fatal_eq_fatalState, endOfCycle_fatalState]
  · have heffect := deliver_effect (s := fetchedState s) hwf hps (.instrAbort e)
    rw [fetchError_user (s := fetchedState s) huser]
    rwa [GuestException.esr, append_eq_or] at heffect

/-- Settles O48: by the privilege in force at the decoding. -/
theorem invalidOpcodesByPrivilege : Obligations.InvalidOpcodesByPrivilege := by
  intro s w e hruns hfetch hdecode
  rw [step_of_decode_error hruns hfetch hdecode]
  refine ⟨fun hkernel => ?_, fun huser hwf hps => ⟨_, rfl, ?_⟩⟩
  · rw [invalidOpcode_kernel (s := fetchedState s) hkernel, fatal_eq_fatalState, endOfCycle_fatalState]
  · rw [invalidOpcode_user (s := fetchedState s) huser]
    exact deliver_effect (s := fetchedState s) hwf hps .invalidInstr

/-! ### Errors of the core's own accesses to the record (R280, R290) -/

/-- The saved address cannot be written: nothing is (R280). -/
theorem deliver_of_savedIp_error {s : State} {err : MemoryError} (hp : psPointer s ≠ 0#32)
    (h : checkedWrite (psPointer s + Config.psSavedIp) .word s.pc .kernel s.mem = .error err) (e : GuestException) :
    deliver e s = fatal .psAccess s := by
  rcases deliver_cases e s with ⟨h0, _⟩ | ⟨_, _, _, hip, _⟩ | ⟨_, _, _, hd⟩ | ⟨_, _, _, hip, _⟩
  · exact absurd h0 hp
  · rw [h] at hip
    cases hip
  · exact hd
  · rw [h] at hip
    cases hip

/-- The tag cannot be written: the saved address stays written (R280, log entry 20). -/
theorem deliver_of_tag_error {s : State} {m : Memory} {err : MemoryError} {e : GuestException} (hp : psPointer s ≠ 0#32)
    (hip : checkedWrite (psPointer s + Config.psSavedIp) .word s.pc .kernel s.mem = .ok m)
    (htag : checkedWrite (psPointer s + Config.psTag) .byte (e.tag.setWidth 32) .kernel m = .error err) :
    deliver e s = fatal .psAccess { s with mem := m } := by
  rcases deliver_cases e s with ⟨h0, _⟩ | ⟨_, _, _, hip', htag', _⟩ | ⟨_, _, hip', _⟩ | ⟨_, _, _, hip', _, hd⟩
  · exact absurd h0 hp
  · rw [hip] at hip'
    cases hip'
    rw [htag] at htag'
    cases htag'
  · rw [hip] at hip'
    cases hip'
  · rw [hip] at hip'
    cases hip'
    exact hd

theorem committedState_of_not_pending {s : State} (h : s.cstrLatch.getLsbD 15 = false) : committedState s = s := by
  rw [← regFileAccess_eq_committedState, regFileAccess_of_not_pending h]

/-- Settles O47, clause by clause: the privilege's reaction, the load, the store, the fetch, and the record's accesses. -/
theorem memoryErrorsLeadToAbortsOrFatalFaults : Obligations.MemoryErrorsLeadToAbortsOrFatalFaults := by
  intro s e
  refine ⟨fun huser => ⟨fetchError_user huser e, accessError_user huser e⟩,
    fun hkernel => ⟨fetchError_kernel hkernel e, by rw [accessError_kernel hkernel, fatal_eq_fatalState]⟩,
    fun w rd rb off hlatch h => ?load, fun w rd rb off hlatch h => ?store, step_of_fetch_error,
    fun x hp h => deliver_of_savedIp_error hp h x, fun x m hp hip htag => deliver_of_tag_error hp hip htag,
    fun hp h => ?eret, fun hp h => ?halt⟩
  case load =>
    rw [load_of_error, committedState_of_not_pending hlatch]
    rwa [regFileAccess_of_not_pending hlatch, committedPriv_of_not_pending hlatch]
  case store =>
    rw [store_of_error, committedState_of_not_pending hlatch]
    rwa [regFileAccess_of_not_pending hlatch, committedPriv_of_not_pending hlatch]
  case eret => rw [returnFromException_of_read_error hp h, fatal_eq_fatalState]
  case halt => rw [haltCheck, haltVerdict_of_read_error hp h, fatal]

/-- A write that may not start or crosses an edge fails (R67). -/
theorem checkedWrite_error_of_refused {a : Word} {w : Width} {p : Priv}
    (h : writeStart a.toNat p ≠ none ∨ crossing a.toNat w.bytes = true) (v : Word) (m : Memory) :
    ∃ e, checkedWrite a w v p m = .error e := by
  rcases checkedWrite_cases a w v p m with ⟨e, _, he⟩ | ⟨_, _, he⟩ | ⟨hstart, hcross, _⟩
  · exact ⟨e, he⟩
  · exact ⟨_, he⟩
  · simp [hstart, hcross] at h

/-- Settles O49. -/
theorem deliveryToAnUnwritableRecordIsFatal : Obligations.DeliveryToAnUnwritableRecordIsFatal := by
  intro e s hp hrefused
  obtain ⟨err, herr⟩ := checkedWrite_error_of_refused (a := psPointer s + Config.psSavedIp) (w := .word) (p := .kernel)
    hrefused s.pc s.mem
  rw [deliver_of_savedIp_error hp herr, fatal_eq_fatalState]

/-! ### The core that waits, and the host (R295 to R297, R141) -/

/-- Settles O51: each stop is named by what blocks the core. -/
theorem waitingCoreTakesNoStep : Obligations.WaitingCoreTakesNoStep := by
  intro s
  refine ⟨fun hfatal => ?_, fun hsafe hinputs hpaused => ?_, fun hsafe hinputs hpaused hstatus => ?_,
    fun hsafe hinputs hpaused hstatus => ?_⟩
  · rw [step, if_pos hfatal]
  · simp [step, hsafe, hinputs, coreStep, blocked, hpaused]
  · simp [step, hsafe, hinputs, coreStep, blocked, hpaused, hstatus]
  · simp [step, hsafe, hinputs, coreStep, blocked, hpaused, hstatus]

/-- A host action at the head of the schedule is the step (R143). -/
theorem step_of_hostAct {s : State} {a : HostInput} {rest : List HostInput} (hsafe : s.fatalFlag = false)
    (hinputs : s.hostInputs = a :: rest) (ha : a ≠ .run) : step s = hostAct a { s with hostInputs := rest } := by
  rw [step, hsafe, hinputs]
  cases a with
  | run => exact absurd rfl ha
  | _ => rfl

/-- Settles O52: each call in each status. -/
theorem hostCallsChangeOnlyWhatTheyName : Obligations.HostCallsChangeOnlyWhatTheyName := by
  intro s entry kind rest hsafe
  have hstep : ∀ a, a ≠ .run →
      step { s with hostInputs := a :: rest } = hostAct a { s with hostInputs := rest } :=
    fun a ha => step_of_hostAct (s := { s with hostInputs := a :: rest }) hsafe rfl ha
  rw [hstep _ (by simp), hstep _ (by simp), hstep _ (by simp), hstep _ (by simp)]
  refine ⟨fun h => ?_, fun h => ?_, fun h => ?_, fun h => ?_, rfl, rfl⟩
  · rcases h with h | h <;> simp [hostAct, hostResume, h]
  · rcases h with h | h <;> simp [hostAct, hostResume, h]
  · simp [hostAct, hostAcknowledge, h]
  · cases hs : s.status with
    | ioWait => exact absurd hs h
    | _ => simp [hostAct, hostAcknowledge]

/-- What a host write does (R297): the byte where it is allowed, a refusal where it is not. -/
theorem step_of_host_write {s : State} {a : Word} {v : Byte} {rest : List HostInput} (hsafe : s.fatalFlag = false)
    (hinputs : s.hostInputs = .write a v :: rest) :
    step s = if hostMayWrite a s then .next { s with hostInputs := rest, mem := Memory.set s.mem a.toNat v }
      else .refused .hostWriteNotAllowed := by
  rw [step_of_hostAct hsafe hinputs (by simp)]
  rfl

/-- When the host may write a byte (R297): in the buffer, and while HALTED or in the staged buffer while IO_WAIT. -/
theorem hostMayWrite_iff (a : Word) (s : State) :
    hostMayWrite a s = true ↔ a.toNat < Config.memSize ∧ (s.status = .halted ∨ (s.status = .ioWait ∧
      ∃ r, s.ioRequest = some r ∧ r.bufferAddress.toNat ≤ a.toNat ∧
        a.toNat < r.bufferAddress.toNat + r.length.toNat)) := by
  rw [hostMayWrite]
  cases hs : s.status with
  | running | exception | halted => simp
  | ioWait => cases hr : s.ioRequest <;> simp

/-- Settles O53: the allowed window, and the cases outside it. -/
theorem hostWritesOnlyWhileTheCoreWaits : Obligations.HostWritesOnlyWhileTheCoreWaits := by
  intro s a v rest hsafe hwf hinputs
  have hallowed : hostMayWrite a s = true → ∃ t, step s = .next t ∧ Memory.get t.mem a.toNat = v ∧
      (∀ b : Nat, b ≠ a.toNat → Memory.get t.mem b = Memory.get s.mem b) ∧
      { t with mem := s.mem } = { s with hostInputs := rest } := by
    intro hmay
    rw [step_of_host_write hsafe hinputs, if_pos hmay]
    exact ⟨_, rfl, by rw [Memory.get_set hwf, if_pos rfl], fun b hb => by rw [Memory.get_set hwf, if_neg hb], rfl⟩
  have hrefused : ¬hostMayWrite a s = true → step s = .refused .hostWriteNotAllowed := by
    intro hmay
    rw [step_of_host_write hsafe hinputs, if_neg hmay]
  rw [hostMayWrite_iff] at hallowed hrefused
  refine ⟨fun hs ha => hallowed ⟨ha, .inl hs⟩, fun r hs hr ha hlo hhi => hallowed ⟨ha, .inr ⟨hs, r, hr, hlo, hhi⟩⟩,
    fun r hs hr hout => hrefused ?_, fun hs hr => hrefused ?_, fun _ ha => hrefused ?_, fun hs => hrefused ?_⟩
  · rintro ⟨_, hhalted | ⟨_, r', hr', hlo, hhi⟩⟩
    · simp [hs] at hhalted
    · rw [hr] at hr'
      cases hr'
      omega
  · simp [hs, hr]
  · exact fun h => absurd h.1 (by omega)
  · rcases hs with hs | hs <;> simp [hs]

/-! ### Reset (R41, R310) -/

/-- Settles O54. -/
theorem resetValues : Obligations.ResetValues := by
  refine ⟨?_, rfl, rfl, rfl, rfl, rfl, rfl, rfl, rfl, rfl⟩
  decide

end Sys2Proof.Machine
end

section
/-! PROOFS. What a user step can learn of memory (R60, R62, R282): two runs that differ in memory the user may not read leave the
same registers and the same condition flags. -/

namespace Sys2Proof.Machine

/-! ### What the user sees, and what leaves it alone -/

/-- The registers and the condition flags of two states are the same. -/
structure SameView (t t' : State) : Prop where
  regs : SameRegs t t'
  flags : flagsOf t'.cstr = flagsOf t.cstr

theorem SameView.symm {s t : State} (h : SameView s t) : SameView t s := ⟨fun i => (h.regs i).symm, h.flags.symm⟩

theorem SameView.trans {s t u : State} (h : SameView s t) (h' : SameView t u) : SameView s u :=
  ⟨fun i => (h'.regs i).trans (h.regs i), h'.flags.trans h.flags⟩

theorem fatal_sameView (r : FatalReason) (s : State) : SameView s (fatal r s) := ⟨fun i => readReg_fatal i r s, rfl⟩

theorem endOfCycle_sameView (s : State) : SameView s (endOfCycle s) :=
  ⟨fun i => readReg_endOfCycle i s, by rw [endOfCycle_cstr]⟩

/-- Delivery touches no register and no flag, whether it is taken or fatal (R280, R282). -/
theorem deliver_sameView (e : GuestException) (s : State) : SameView s (deliver e s) := by
  refine ⟨fun i => ?_, flagsOf_deliver e s⟩
  rcases deliver_cases e s with ⟨_, h⟩ | ⟨_, _, _, _, _, h⟩ | ⟨_, _, _, h⟩ | ⟨_, _, _, _, _, h⟩ <;> rw [h]
  · exact readReg_enterHandler i e s
  · exact readReg_enterHandler i e _
  · exact readReg_fatal i _ s
  · exact readReg_fatal i _ _

theorem accessError_sameView (e : MemoryError) (s : State) : SameView s (accessError e s) := by
  rcases accessError_cases e s with ⟨_, h⟩ | ⟨_, h⟩ <;> rw [h]
  · exact deliver_sameView _ s
  · exact fatal_sameView _ s

theorem fetchError_sameView (e : MemoryError) (s : State) : SameView s (fetchError e s) := by
  unfold fetchError
  split
  · exact deliver_sameView _ s
  · exact fatal_sameView _ s

theorem invalidOpcode_sameView (s : State) : SameView s (invalidOpcode s) := by
  unfold invalidOpcode
  split
  · exact deliver_sameView _ s
  · exact fatal_sameView _ s

/-- With nothing pending, the commit check leaves the view alone (R40). -/
theorem sameView_of_committed {s t : State} (hlatch : s.cstrLatch.getLsbD 15 = false) (hregs : SameRegs s t)
    (hcstr : t.cstr = committedCstr s) : SameView s t :=
  ⟨hregs, by rw [hcstr, committedCstr_of_not_pending hlatch]⟩

theorem sameView_of_movesPcTo {s t : State} {target : Word} (hlatch : s.cstrLatch.getLsbD 15 = false)
    (h : MovesPcTo target s t) : SameView s t := by
  obtain ⟨_, hregs, hcstr, _⟩ := h
  exact sameView_of_committed hlatch hregs hcstr

theorem store_sameView {s : State} (hlatch : s.cstrLatch.getLsbD 15 = false) (w : Width) (rdata rb : RegIdx)
    (off : MemOffset) : SameView s (store w rdata rb off s) := by
  rcases store_cases w rdata rb off s with ⟨_, _, h⟩ | ⟨_, _, h⟩ <;> rw [h, regFileAccess_of_not_pending hlatch]
  · exact ⟨fun _ => rfl, rfl⟩
  · exact accessError_sameView _ s

theorem flagsOf_of_replaced {c o n z : Bool} {old new : Half} (h : FlagsReplaced c o n z old new) :
    flagsOf new = ⟨c, o, n, z⟩ := by
  obtain ⟨hc, ho, hn, hz, _⟩ := h
  simp only [flagsOf, cstrGet, Config.cstrPos, hc, ho, hn, hz]

/-! ### What the user reads -/

/-- A fetch or read that user code may start is at a user-readable address (R60, R62). -/
theorem userReadable_of_startError {k : ReadKind} {a : Nat} (h : startError k a .user = none) : UserReadable a := by
  cases k with
  | data => exact (readStart_user_eq_none a).mp h
  | fetch =>
    rw [startError, fetchStart_user] at h
    simp only [UserReadable, InRegion, region_bounds]
    split at h
    · omega
    · cases h

/-- A user access gives the same answer on two memories that agree on what the user may read (R62, R66). -/
theorem checkedRead_user_congr {m m' : Memory} (hagree : ∀ a, UserReadable a → Memory.get m' a = Memory.get m a)
    (k : ReadKind) (a : Word) (w : Width) : checkedRead k a w .user m' = checkedRead k a w .user m := by
  rcases checkedRead_cases k a w .user m with ⟨e, hstart, h⟩ | ⟨hstart, hcross, h⟩ | ⟨hstart, hcross, h⟩ <;> rw [h]
  · rw [checkedRead, hstart]
  · rw [checkedRead, hstart, hcross]
    rfl
  · rw [checkedRead_of_admitted hstart hcross]
    congr 2
    refine Memory.readLE_congr _ _ fun b hlo hhi => hagree b ?_
    obtain ⟨k, rfl⟩ := Nat.exists_eq_add_of_le hlo
    exact (userReadable_of_startError hstart).add hcross (by omega)

/-- Two user states, nothing pending, that differ in memory the user may not read and in nothing an instruction looks at. -/
structure UserTwins (s s' : State) : Prop where
  regs : SameRegs s s'
  pc : s'.pc = s.pc
  cstr : s'.cstr = s.cstr
  user : s.priv = .user
  latch : s.cstrLatch.getLsbD 15 = false
  latch' : s'.cstrLatch.getLsbD 15 = false
  mem : ∀ a, UserReadable a → Memory.get s'.mem a = Memory.get s.mem a

namespace UserTwins

variable {s s' : State}

theorem user' (h : UserTwins s s') : s'.priv = .user := (priv_eq_of_cstr_eq h.cstr).trans h.user

theorem sameView (h : UserTwins s s') : SameView s s' := ⟨h.regs, by rw [h.cstr]⟩

/-- Two states the view of which stays look alike. -/
theorem sameView_of_kept (h : UserTwins s s') {t t' : State} (ht : SameView s t) (ht' : SameView s' t') : SameView t t' :=
  ht.symm.trans (h.sameView.trans ht')

/-- The same value written to the same register. -/
theorem regs_of_regWritten (h : UserTwins s s') {t t' : State} {rd : RegIdx} {v : Word} (ht : RegWritten rd v s t)
    (ht' : RegWritten rd v s' t') : SameRegs t t' := by
  obtain ⟨hrd, hother⟩ := ht
  obtain ⟨hrd', hother'⟩ := ht'
  intro i
  by_cases hi : i = rd
  · rw [hi, hrd, hrd', h.regs]
  · rw [hother i hi, hother' i hi, h.regs]

theorem sameView_of_writesOneRegister (h : UserTwins s s') {t t' : State} {rd : RegIdx} {v : Word}
    (ht : WritesOneRegister rd v s t) (ht' : WritesOneRegister rd v s' t') : SameView t t' := by
  obtain ⟨hreg, _, hcstr, _⟩ := ht
  obtain ⟨hreg', _, hcstr', _⟩ := ht'
  refine ⟨h.regs_of_regWritten hreg hreg', ?_⟩
  rw [hcstr, hcstr', committedCstr_of_not_pending h.latch, committedCstr_of_not_pending h.latch', h.cstr]

theorem aluImm (h : UserTwins s s') (op : AluOp) (rd rs : RegIdx) (imm14 : BitVec 14) :
    SameView (aluImm op rd rs imm14 s) (aluImm op rd rs imm14 s') := by
  refine h.sameView_of_writesOneRegister (aluImm_effect ..) ?_
  rw [← h.regs]
  exact aluImm_effect ..

theorem aluReg (h : UserTwins s s') (op : AluOp) (rd rs1 rs2 : RegIdx) :
    SameView (aluReg op rd rs1 rs2 s) (aluReg op rd rs1 rs2 s') := by
  refine h.sameView_of_writesOneRegister (aluReg_effect ..) ?_
  rw [← h.regs, ← h.regs]
  exact aluReg_effect ..

theorem sameView_of_writesFlagsAndRegister (h : UserTwins s s') {t t' : State} {rd : RegIdx} {v : Word}
    {c o n z : Bool} (ht : WritesFlagsAndRegister rd v c o n z s t) (ht' : WritesFlagsAndRegister rd v c o n z s' t') :
    SameView t t' := by
  obtain ⟨hreg, _, hflags, _⟩ := ht
  obtain ⟨hreg', _, hflags', _⟩ := ht'
  exact ⟨h.regs_of_regWritten hreg hreg', by rw [flagsOf_of_replaced hflags, flagsOf_of_replaced hflags']⟩

theorem addWithFlags (h : UserTwins s s') (rd : RegIdx) (a b : Word) :
    SameView (addWithFlags rd a b (regFileAccess s)) (addWithFlags rd a b (regFileAccess s')) := by
  rw [addWithFlags_eq, addWithFlags_eq]
  exact h.sameView_of_writesFlagsAndRegister (writeReg_writeFlags_effect ..) (writeReg_writeFlags_effect ..)

theorem subWithFlags (h : UserTwins s s') (rd : RegIdx) (a b : Word) :
    SameView (subWithFlags rd a b (regFileAccess s)) (subWithFlags rd a b (regFileAccess s')) := by
  rw [subWithFlags_eq, subWithFlags_eq]
  exact h.sameView_of_writesFlagsAndRegister (writeReg_writeFlags_effect ..) (writeReg_writeFlags_effect ..)

theorem compareFlags (h : UserTwins s s') (a b : Word) :
    SameView (compareFlags a b (regFileAccess s)) (compareFlags a b (regFileAccess s')) :=
  ⟨fun i => by simp [Machine.compareFlags, h.regs i], by rw [flagsOf_compareFlags, flagsOf_compareFlags]⟩

/-- A zero divisor stops both runs, another divisor neither (R153). -/
theorem div (h : UserTwins s s') (rd rs1 rs2 : RegIdx) :
    ∃ t t', execDiv rd rs1 rs2 s = .next t ∧ execDiv rd rs1 rs2 s' = .next t' ∧ SameView t t' := by
  by_cases hzero : readReg rs2 s = 0#32
  · refine ⟨_, _, execDiv_of_eq_zero hzero rd rs1, execDiv_of_eq_zero ((h.regs rs2).trans hzero) rd rs1, ?_⟩
    rw [regFileAccess_of_not_pending h.latch, regFileAccess_of_not_pending h.latch']
    exact h.sameView_of_kept (fatal_sameView _ s) (fatal_sameView _ s')
  · refine ⟨_, _, execDiv_of_ne_zero hzero rd rs1,
      execDiv_of_ne_zero (fun h' => hzero ((h.regs rs2).symm.trans h')) rd rs1, ?_⟩
    refine h.sameView_of_writesOneRegister (writeReg_effect ..) ?_
    rw [← h.regs, ← h.regs]
    exact writeReg_effect ..

theorem effAddr_eq (h : UserTwins s s') (rb : RegIdx) (off : MemOffset) : effAddr rb off s' = effAddr rb off s := by
  cases off <;> simp only [effAddr, memOperand, h.regs _]

/-- A load reads the same value in both runs, or takes the same error: the access is the user's (R62, R212). -/
theorem load (h : UserTwins s s') (w : Width) (rd rb : RegIdx) (off : MemOffset) :
    SameView (load w rd rb off s) (load w rd rb off s') := by
  have hread : checkedRead .data (effAddr rb off (regFileAccess s')) w (committedPriv s') s'.mem =
      checkedRead .data (effAddr rb off (regFileAccess s)) w (committedPriv s) s.mem := by
    rw [regFileAccess_of_not_pending h.latch, regFileAccess_of_not_pending h.latch', committedPriv_of_not_pending h.latch,
      committedPriv_of_not_pending h.latch', h.user, h.user', h.effAddr_eq, checkedRead_user_congr h.mem]
  rcases load_cases w rd rb off s with ⟨v, hv, hload⟩ | ⟨e, he, hload⟩
  · rcases load_cases w rd rb off s' with ⟨v', hv', hload'⟩ | ⟨e', he', _⟩
    · rw [hread, hv] at hv'
      cases hv'
      rw [hload, hload', writeReg_regFileAccess, writeReg_regFileAccess]
      exact h.sameView_of_writesOneRegister (writeReg_effect ..) (writeReg_effect ..)
    · rw [hread, hv] at he'
      cases he'
  · rcases load_cases w rd rb off s' with ⟨v', hv', _⟩ | ⟨e', _, hload'⟩
    · rw [hread, he] at hv'
      cases hv'
    · rw [hload, hload', regFileAccess_of_not_pending h.latch, regFileAccess_of_not_pending h.latch']
      exact h.sameView_of_kept (accessError_sameView _ s) (accessError_sameView _ s')

theorem store (h : UserTwins s s') (w : Width) (rdata rb : RegIdx) (off : MemOffset) :
    SameView (store w rdata rb off s) (store w rdata rb off s') :=
  h.sameView_of_kept (store_sameView h.latch w rdata rb off) (store_sameView h.latch' w rdata rb off)

/-- A transfer of control leaves the view alone, wherever it goes. -/
theorem movesPcTo (h : UserTwins s s') {t t' : State} {target target' : Word} (ht : MovesPcTo target s t)
    (ht' : MovesPcTo target' s' t') : SameView t t' :=
  h.sameView_of_kept (sameView_of_movesPcTo h.latch ht) (sameView_of_movesPcTo h.latch' ht')

/-- CALL links the same address in both runs (R223). -/
theorem call (h : UserTwins s s') (off24 : BitVec 24) :
    ∃ t t', exec (.call off24) s = .next t ∧ exec (.call off24) s' = .next t' ∧ SameView t t' := by
  obtain ⟨t, ht, _, hlink, hcstr, _⟩ := callLinksAndBranches off24 s
  obtain ⟨t', ht', _, hlink', hcstr', _⟩ := callLinksAndBranches off24 s'
  rw [h.pc] at hlink'
  refine ⟨t, t', ht, ht', h.regs_of_regWritten hlink hlink', ?_⟩
  rw [hcstr, hcstr', committedCstr_of_not_pending h.latch, committedCstr_of_not_pending h.latch', h.cstr]

/-- A privileged sub-opcode is the privilege violation in both runs (R125). -/
theorem privileged (h : UserTwins s s') (effect : State → State) :
    SameView (privileged effect s) (privileged effect s') := by
  rw [privileged_user _ h.user, privileged_user _ h.user']
  exact h.sameView_of_kept (deliver_sameView _ s) (deliver_sameView _ s')

theorem syscall (h : UserTwins s s') :
    ∃ t t', exec .syscall s = .next t ∧ exec .syscall s' = .next t' ∧ SameView t t' := by
  refine ⟨_, _, rfl, rfl, ?_⟩
  rw [regFileAccess_of_not_pending h.latch, regFileAccess_of_not_pending h.latch']
  exact h.sameView_of_kept (deliver_sameView _ s) (deliver_sameView _ s')

/-- Every instruction leaves the same view in both runs (R282). -/
theorem exec (h : UserTwins s s') (i : Instr) :
    ∃ t t', exec i s = .next t ∧ exec i s' = .next t' ∧ SameView t t' := by
  cases i with
  | nop => exact ⟨_, _, rfl, rfl, h.movesPcTo (commit_effect s) (commit_effect s')⟩
  | addImm | subImm | orImm | andImm | xorImm | notImm | lslImm | lsrImm | asrImm =>
    exact ⟨_, _, rfl, rfl, h.aluImm ..⟩
  | addReg | subReg | orReg | andReg | xorReg | notReg | lslReg | lsrReg | asrReg | mul =>
    exact ⟨_, _, rfl, rfl, h.aluReg ..⟩
  | addsImm | addsReg =>
    refine ⟨_, _, rfl, rfl, ?_⟩
    simp only [readReg_regFileAccess, h.regs _]
    exact h.addWithFlags ..
  | subsImm | subsReg =>
    refine ⟨_, _, rfl, rfl, ?_⟩
    simp only [readReg_regFileAccess, h.regs _]
    exact h.subWithFlags ..
  | cmpImm | cmpReg =>
    refine ⟨_, _, rfl, rfl, ?_⟩
    simp only [readReg_regFileAccess, h.regs _]
    exact h.compareFlags ..
  | div rd rs1 rs2 => exact h.div rd rs1 rs2
  | ld | ldh | ldb => exact ⟨_, _, rfl, rfl, h.load ..⟩
  | str | strh | strb => exact ⟨_, _, rfl, rfl, h.store ..⟩
  | b | br | ret => exact ⟨_, _, rfl, rfl, h.movesPcTo (jump_effect ..) (jump_effect ..)⟩
  | call off24 => exact h.call off24
  | bEq | bNe | bOv | bNv | bMi | bPz | bCc | bCs | bGt | bGe | bLt | bLe =>
    exact ⟨_, _, rfl, rfl, h.movesPcTo (branchCond_effect ..) (branchCond_effect ..)⟩
  | syscall => exact h.syscall
  | hlt | si | di | eret | ldir | mvcstr | ldcstr | resr => exact ⟨_, _, rfl, rfl, h.privileged _⟩

/-- The start of a cycle and the fetch's increment keep two runs alike (R121). -/
theorem fetched (h : UserTwins s s') : UserTwins (advance (beginCycle s)) (advance (beginCycle s')) where
  regs i := by simp [h.regs i]
  pc := by simp [h.pc]
  cstr := by simp [h.cstr]
  user := (priv_eq_of_cstr_eq (by simp)).trans h.user
  latch := by simpa using h.latch
  latch' := by simpa using h.latch'
  mem a ha := by simpa using h.mem a ha

/-- Both runs fetch the same word, or take the same fetch error (R60). -/
theorem fetchWord_eq (h : UserTwins s s') : fetchWord s' = fetchWord s := by
  rw [fetchWord, fetchWord, h.user, h.user', h.pc, checkedRead_user_congr h.mem]

/-- A cycle leaves the same view in both runs (R282). -/
theorem cycle (h : UserTwins s s') {t t' : State} (ht : cycle s = .next t) (ht' : cycle s' = .next t') :
    SameView t t' := by
  have hend : ∀ u u', SameView u u' → SameView (endOfCycle u) (endOfCycle u') :=
    fun u u' hu => (endOfCycle_sameView u).symm.trans (hu.trans (endOfCycle_sameView u'))
  have hf := h.fetched
  cases hfetch : fetchWord s with
  | error e =>
    rw [cycle_of_fetch_error hfetch] at ht
    rw [cycle_of_fetch_error (h.fetchWord_eq.trans hfetch)] at ht'
    cases ht
    cases ht'
    exact hend _ _ (hf.sameView_of_kept (fetchError_sameView e _) (fetchError_sameView e _))
  | ok w =>
    have hfetch' := h.fetchWord_eq.trans hfetch
    cases hdecode : decodeWord w with
    | error e =>
      rw [cycle_of_decode_error hfetch hdecode] at ht
      rw [cycle_of_decode_error hfetch' hdecode] at ht'
      cases ht
      cases ht'
      exact hend _ _ (hf.sameView_of_kept (invalidOpcode_sameView _) (invalidOpcode_sameView _))
    | ok i =>
      obtain ⟨u, u', hu, hu', hview⟩ := hf.exec i
      rw [cycle_of_decoded hfetch hdecode, hu] at ht
      rw [cycle_of_decoded hfetch' hdecode, hu'] at ht'
      cases ht
      cases ht'
      exact hend u u' hview

end UserTwins

/-- Settles O59: the two states are twins, and a step with nothing scheduled is a cycle. -/
theorem userRegistersDoNotDependOnKernelMemory : Obligations.UserRegistersDoNotDependOnKernelMemory := by
  intro s t t' m huser hlatch hinputs hagree hstep hstep'
  have htwins : UserTwins s { s with mem := m } :=
    { regs := fun _ => rfl, pc := rfl, cstr := rfl, user := huser, latch := hlatch, latch' := hlatch
      mem := fun a ha => hagree a ((readStart_user_eq_none a).mpr ha) }
  have hview := htwins.cycle (cycle_of_step hinputs hstep) (cycle_of_step (s := { s with mem := m }) hinputs hstep')
  exact ⟨fun i => (hview.regs i).symm, hview.flags.symm⟩

end Sys2Proof.Machine
end
